-- ==== Sys2Proof/Word.lean ====
section
/-! DEFINITION. The widths of the part: shared-memory words, bytes, PCM samples, key codes, and the numbers of
lines and senders (spec/00_scope.md, Conventions). -/

namespace Sys2Proof

/-- A shared-memory word or a register word: 32 bits (00_scope.md, Shared memory; R213). -/
abbrev Word := BitVec 32

/-- A byte: an edition, or one memory cell. -/
abbrev Byte := BitVec 8

/-- A highway sample: 16-bit two's-complement linear PCM (00_scope.md, Samples). -/
abbrev Sample := BitVec 16

/-- A key code, 0 to 15: 0-9 the digits, 10 `*`, 11 `#`, 12-15 A to D (00_scope.md, Key codes). -/
abbrev Key := Fin 16

/-- A line number, 0 to 95; line n uses channel n on both highways and descriptor n (00_scope.md, Numbering). -/
abbrev LineNo := Fin 96

/-- A sender number, 0 to 15. -/
abbrev SenderNo := Fin 16

/-- Every line, in line order: the order in which the bits of a scan frame arrive (R1). -/
abbrev allLines : List LineNo := List.finRange 96

/-- Every sender, lowest number first. -/
abbrev allSenders : List SenderNo := List.finRange 16

end Sys2Proof
end

