-- ==== Sys2Proof/Config.lean ====
section
/-! DEFINITION. The fixed numbers of the part, each of which stands in a rule of spec/, and the one free value of the model:
an order of events that the spec leaves open. -/

namespace Sys2Proof.Config

/-- A key store holds at most 32 keys (R120). -/
abbrev storeRoom : Nat := 32

/-- A call-digit string holds at most 24 digits (R97). -/
abbrev maxDigits : Nat := 24

/-- The staging FIFO holds at most 32 records (R190, R192). -/
abbrev stagingRoom : Nat := 32

/-- A journal sequence writes at most 8 records (R195). -/
abbrev recordsPerSequence : Nat := 8

/-- The limit of every 16-bit saturating count: phase timer, interval timer, fault run, clear run, keys sent, gap
count (R6, R8, R11, R40, R133, R190). -/
abbrev countLimit : Nat := 65535

/-- The largest time a scaled time code stands for, 31 × 1024 ticks (R167). -/
abbrev maxTime : Nat := 31744

/-- The shortest frame and the shortest spacing of a well-spaced edge, in internal cycles (R206, R208). -/
abbrev minSpacing : Nat := 2483

/-- The longest spacing of a well-spaced edge, and the cycle of the fill in LOCKED (R206, R208). -/
abbrev maxSpacing : Nat := 2637

/-- Well-spaced edges to lock (R206). -/
abbrev qualifyEdges : Nat := 1024

/-- A QUALIFYING unit loses the reference after this many cycles without an edge (R206). -/
abbrev qualifyTimeoutCycles : Nat := 10240

/-- The longest a frame 3 is held open (R207). -/
abbrev handoverLimit : Nat := 5120

/-- Ticks of a divider window (R210). -/
abbrev windowTicks : Nat := 256

/-- The clamp of the learned divider, and its value after reset (R205, R210). -/
abbrev dividerMin : Nat := 10036
abbrev dividerMax : Nat := 10444
abbrev dividerNominal : Nat := 10240

/-- The last tick-in-second (R211). -/
abbrev lastTick : Nat := 1999

/-- The start-up hold, in internal cycles (R219). No step of the table falls inside it, so nothing counts it. -/
abbrev holdCycles : Nat := 4096

/-- RESET_N must be low for this many consecutive internal cycles (R219). -/
abbrev resetFilterCycles : Nat := 64

/-- The common area: the size of the header and of a line descriptor, and the number of lines a header must name
(R159, R218). -/
abbrev headerBytes : Nat := 48
abbrev descriptorBytes : Nat := 64
abbrev lineCount : Nat := 96

/-- A plan table has 64 positions (R100). -/
abbrev planPositions : Nat := 64

/-- FREE VALUE: the senders whose expiries are taken before a loss of the reference that falls on the same tick boundary, in
the order in which they are taken, for each such loss by its number. R140 lets an expiry or the loss come first, and gives
no order (assumption log 11). -/
opaque expiriesFirst : Nat → List SenderNo

end Sys2Proof.Config
end

