-- ==== Sys2Proof/Syntax.lean ====
section
/-! DEFINITION. The commands of the part, one constructor for each row of spec/opcode_table.json, in the table's order.
An operand is what the step takes from outside the part (a pin, the data bus, a host's register write), the line,
sender or channel the step falls on, or the instant the spec leaves open. Everything else a step needs is in State. -/

namespace Sys2Proof

inductive Instr where
  /-- POWER_ON: the supply falls below its operating range (R219). -/
  | powerOn
  /-- PIN_RESET: RESET_N has been low for `lowCycles` consecutive internal cycles (R219: 64 make a reset). -/
  | pinReset (lowCycles : Nat)
  /-- START_UP_HOLD_END: the 4096 cycles of the start-up hold have passed (R219). -/
  | startUpHoldEnd
  /-- FRAME_START: outside LOCKED, the internal oscillator ends a frame and starts the next (R204). -/
  | frameStart
  /-- TIME_ROLLOVER: the rollover of device time at the boundary just produced (R211, R212). -/
  | timeRollover
  /-- XFS_EDGE: a reference frame sync edge, at internal cycle `cycle` counted from the start of the current frame. -/
  | xfsEdge (cycle : Nat)
  /-- LOCK_HANDOVER_TIMEOUT: a held-open frame 3 reaches 5120 cycles (R207). -/
  | lockHandoverTimeout
  /-- QUALIFY_TIMEOUT: 10240 cycles without an XFS edge in QUALIFYING (R206). -/
  | qualifyTimeout
  /-- FILLED_FRAME: no edge by cycle 2637 of a frame in LOCKED (R208). -/
  | filledFrame
  /-- DIVIDER_WINDOW_CLOSE: the 256th boundary of a divider window (R210). -/
  | dividerWindowClose
  /-- SCAN_FRAME_COMPLETE: the 192 bits of a scan frame; bit k of `frame` is the k-th bit received (R1). -/
  | scanFrameComplete (frame : BitVec 192)
  /-- GUARD_EXPIRY of a line (R21). -/
  | guardExpiry (line : LineNo)
  /-- INTERDIGIT_EXPIRY of a line (R46, R56). -/
  | interdigitExpiry (line : LineNo)
  /-- COMPLETION_TIMER_EXPIRY of a line (R98, R109). -/
  | completionTimerExpiry (line : LineNo)
  /-- RELEASE of a line: a break reaching Rel (R22). -/
  | release (line : LineNo)
  /-- FAULT_BLOCK of a line: the fault run reaching the persistence (R10, R32). -/
  | faultBlock (line : LineNo)
  /-- FAULT_RETURN of a line: the clear run reaching the persistence (R12, R33). -/
  | faultReturn (line : LineNo)
  /-- BURST_START of a sender at a tick boundary after its grant (R134). -/
  | burstStart (sender : SenderNo)
  /-- BURST_EXPIRY of a sender (R134). -/
  | burstExpiry (sender : SenderNo)
  /-- GAP_EXPIRY of a sender (R135). -/
  | gapExpiry (sender : SenderNo)
  /-- LINE_SLOT_RECEIVED: the 16 bits of slot `channel` of the current line-side frame (R144, R146). -/
  | lineSlotReceived (channel : LineNo) (sample : Sample)
  /-- SEQUENCE_START: the port serves its oldest queued request (R161). -/
  | sequenceStart
  /-- TRANSFER_DONE: XFERDONE_N for the transfer in progress; `data` is DATA[31:0] then (used by a read) (R218). -/
  | transferDone (data : Word)
  /-- LINE_TAKE_UP of the line being visited; `composeNow` says whether the report is composed in the same step (R164,
  R178: events may be taken between the take-up and the composing). -/
  | lineTakeUp (composeNow : Bool)
  /-- NONE, request code 0 on a line under a request edition (R174, R175). -/
  | requestNone (line : LineNo) (edition : Byte)
  /-- INJECT: operand count, and eight four-bit keys in one word (R122, R186). -/
  | inject (line : LineNo) (edition : Byte) (count : Byte) (keys : Word)
  /-- FLUSH (R124). -/
  | flush (line : LineNo) (edition : Byte)
  /-- END_NUMBER (R110). -/
  | endNumber (line : LineNo) (edition : Byte)
  /-- RESUME (R29). -/
  | resume (line : LineNo) (edition : Byte)
  /-- CLEAR_FLAGS (R93). -/
  | clearFlags (line : LineNo) (edition : Byte)
  /-- BLOCK (R30). -/
  | block (line : LineNo) (edition : Byte)
  /-- UNBLOCK (R31). -/
  | unblock (line : LineNo) (edition : Byte)
  /-- RESET_SPEED (R70). -/
  | resetSpeed (line : LineNo) (edition : Byte)
  /-- UNKNOWN_REQUEST: a request code of 9 to 255 (R175). -/
  | unknownRequest (line : LineNo) (edition : Byte) (code : Byte)
  /-- VISIT_COMPLETE: the last report write of a line visit has completed (R164). -/
  | visitComplete
  /-- HEADER_TAKE_UP: the five header reads have completed; `composeNow` as in LINE_TAKE_UP, for the header words when
  no plan load follows (R179). -/
  | headerTakeUp (composeNow : Bool)
  /-- PLAN_LOAD_OUTCOME: the plan load's last read has completed; `composeNow` as above (R182). -/
  | planLoadOutcome (composeNow : Bool)
  /-- HEADER_VISIT_COMPLETE: the last of the four header words has been written (R179). -/
  | headerVisitComplete
  /-- HEADER_CHECK: the four STARTING reads have completed (R218). -/
  | headerCheck
  /-- RELEASE_READ: the release index read of a journal sequence has completed (R195, R196). -/
  | releaseRead
  /-- JOURNAL_COMMIT: the head write of a journal sequence has completed (R195). -/
  | journalCommit
  /-- HOLD_OFF_CLEAR: the full hold-off clears at a tick boundary (R194). -/
  | holdOffClear
  /-- BUS_ERROR: BUSERR_N for the transfer in progress; `withDone` says whether XFERDONE_N is asserted with it (R218). -/
  | busError (withDone : Bool)
  /-- BUS_TIMEOUT: two tick boundaries have passed while the port waits on the bus (R218). -/
  | busTimeout
  /-- RUN, written to CONTROL (R215). -/
  | run
  /-- HALT, written to CONTROL (R215). -/
  | halt
  /-- CLEAR_FAULT, written to CONTROL (R215). -/
  | clearFault
  /-- SOFT_RESET, written to CONTROL (R215, R219). -/
  | softReset
  /-- A CONTROL write whose command field is 0 or 5 to 7 (R215). -/
  | ignoredCommand (field : BitVec 3)
  /-- A write of AREA BASE (R214). -/
  | areaBaseWrite (data : Word)
  /-- A write of STATUS (R216). -/
  | statusWrite (data : Word)
  /-- A write of ATTENTION (R217). -/
  | attentionWrite (data : Word)
  /-- BUS_GRANT: BUSGNT_N after BUSREQ_N (R218). -/
  | busGrant
  /-- RESET_N returns high (R219). -/
  | resetNReturnsHigh
  /-- The supply enters its operating range (R219). -/
  | supplyInOperatingRange
  deriving DecidableEq, Repr

end Sys2Proof
end

