-- ==== Sys2Proof/WellFormed.lean ====
section
/-! DEFINITION. Which commands can arise at all. The types of Syntax.lean bound lines, senders, samples and words;
the checks below bound the rest. A term they refuse is no input of the part; exec is total on it all the same. -/

namespace Sys2Proof

/-- No frame lasts longer than 5120 cycles, so no edge falls later in one (R204, R207). -/
def edgeCycleOk (cycle : Nat) : Bool := cycle ≤ Config.handoverLimit

/-- The command fields without a command are 0 and 5 to 7 (R215). -/
def ignoredFieldOk (field : BitVec 3) : Bool := field.toNat = 0 || 5 ≤ field.toNat

/-- The request codes without a request are 9 to 255 (R175). -/
def unknownCodeOk (code : Byte) : Bool := 9 ≤ code.toNat

/-- The well-formed commands. -/
def Instr.wellFormed : Instr → Bool
  | .powerOn => true
  | .pinReset _ => true
  | .startUpHoldEnd => true
  | .frameStart => true
  | .timeRollover => true
  | .xfsEdge cycle => edgeCycleOk cycle
  | .lockHandoverTimeout => true
  | .qualifyTimeout => true
  | .filledFrame => true
  | .dividerWindowClose => true
  | .scanFrameComplete _ => true
  | .guardExpiry _ => true
  | .interdigitExpiry _ => true
  | .completionTimerExpiry _ => true
  | .release _ => true
  | .faultBlock _ => true
  | .faultReturn _ => true
  | .burstStart _ => true
  | .burstExpiry _ => true
  | .gapExpiry _ => true
  | .lineSlotReceived _ _ => true
  | .sequenceStart => true
  | .transferDone _ => true
  | .lineTakeUp _ => true
  | .requestNone _ _ => true
  | .inject _ _ _ _ => true
  | .flush _ _ => true
  | .endNumber _ _ => true
  | .resume _ _ => true
  | .clearFlags _ _ => true
  | .block _ _ => true
  | .unblock _ _ => true
  | .resetSpeed _ _ => true
  | .unknownRequest _ _ code => unknownCodeOk code
  | .visitComplete => true
  | .headerTakeUp _ => true
  | .planLoadOutcome _ => true
  | .headerVisitComplete => true
  | .headerCheck => true
  | .releaseRead => true
  | .journalCommit => true
  | .holdOffClear => true
  | .busError _ => true
  | .busTimeout => true
  | .run => true
  | .halt => true
  | .clearFault => true
  | .softReset => true
  | .ignoredCommand field => ignoredFieldOk field
  | .areaBaseWrite _ => true
  | .statusWrite _ => true
  | .attentionWrite _ => true
  | .busGrant => true
  | .resetNReturnsHigh => true
  | .supplyInOperatingRange => true

end Sys2Proof
end

