-- ==== Sys2Proof/Decode.lean ====
section
/-! DEFINITION. The command a word spells by the table's bits. No row of spec/opcode_table.json gives bits (every row's
"fields" is empty and no row has "fixed"), so no word spells a command. The bit codings the spec does give (CONTROL's
command field, request codes, profiles, plan entries) are in Machine/Operands.lean. -/

namespace Sys2Proof

/-- Total on every word, and `none` on all of them: the table's rows carry no bits. -/
def decodeTableWord (_nbits _w : Nat) : Option Instr := none

end Sys2Proof
end

