-- ==== Sys2Proof/Machine/State.lean ====
section
/-! DEFINITION. The state of the part, block by block as spec/00_scope.md tables it, as plain data; why a step can stop;
and State.reset, the part right after a POWER_ON reset. A field marked MODEL'S OWN is bookkeeping of this model (see
INVENTORY.md and the assumption log), every other field is named by the rule in its docstring. -/

namespace Sys2Proof.Machine

/-! ## Why a step can stop -/

/-- No command of this part stops the machine: the spec gives every step its effect, and what it calls a fault (a port
fault, a fault block) is a change of state. So there is no constructor. -/
inductive Fault where
  deriving DecidableEq, Repr

/-- Why a command is refused. -/
inductive Refusal where
  /-- Raised by exec's arm of a command that has no meaning yet; safe (no claim about the command can be proved). -/
  | notModelled (mnemonic : String)
  deriving DecidableEq, Repr

/-! ## Names -/

/-- A debounced loop state (R7). -/
inductive LoopState where
  | opened
  | closed
  deriving DecidableEq, Repr

/-- The reason of a block (R17, R188). -/
inductive BlockReason where
  | admin
  | fault
  deriving DecidableEq, Repr

/-- The main states of a line; BLOCKED carries its reason (R17). -/
inductive MainState where
  | outOfService
  | blocked (reason : BlockReason)
  | onHook
  | seizing
  | collecting
  | through
  | suspended
  deriving DecidableEq, Repr

/-- The train sub-state (R18). -/
inductive SubState where
  | idle
  | brk
  | make
  deriving DecidableEq, Repr

/-- Where a RESUME returns a suspended line to (R17). -/
inductive ResumeTarget where
  | collecting
  | through
  deriving DecidableEq, Repr

/-- The line class (R19). -/
inductive LineClass where
  | normal
  | urgent
  deriving DecidableEq, Repr

/-- The loop codes of a scan frame: 0, 1, 2, 3 (01, "Loop codes and which lines take them"). -/
inductive LoopCode where
  | opened
  | closed
  | marginal
  | fault
  deriving DecidableEq, Repr

/-- A set of the nine conditions, in the bit order of R184. -/
abbrev CondSet := BitVec 9

/-- Where a stored key comes from (R120). -/
inductive Origin where
  | dialled
  | flash
  | endKey
  | injected
  deriving DecidableEq, Repr

/-- An entry of a key store (R120). -/
structure StoredKey where
  key : Key
  origin : Origin
  deriving DecidableEq, Repr

/-- Device time: a seconds count and a tick-in-second (R211). -/
structure DevTime where
  seconds : Word
  tick : Nat
  deriving DecidableEq, Repr

/-! ## Profiles (R167 to R172) -/

/-- The marginal policy (R5). -/
inductive MarginalPolicy where
  | hold
  | asOpen
  | asClosed
  deriving DecidableEq, Repr

/-- The rounding mode of the interdigit threshold (R78). -/
inductive Rounding where
  | nearest
  | down
  | up
  deriving DecidableEq, Repr

/-- The numbering of a dial (R57). -/
inductive Numbering where
  | direct
  | inverse
  | offset
  deriving DecidableEq, Repr

/-- The sending mode (R116). -/
inductive SendingMode where
  | overlap
  | enBloc
  deriving DecidableEq, Repr

/-- The after-completion policy (R60). -/
inductive AfterCompletion where
  | forward
  | ignore
  deriving DecidableEq, Repr

/-- The unmatched action (R107). -/
inductive UnmatchedAction where
  | completeNow
  | atTimeout
  deriving DecidableEq, Repr

/-- A checked and clamped profile with its time fields decoded to ticks (R172). -/
structure Profile where
  /-- service: true is IN_SERVICE (R34). -/
  inService : Bool
  /-- mute enable: true is ON (R149). -/
  muteEnable : Bool
  /-- flash-restart: true is on (R26). -/
  flashRestart : Bool
  /-- flash mapping: none is NONE (R63). -/
  flashMapping : Option Key
  /-- D (R4). -/
  depth : Nat
  marginalPolicy : MarginalPolicy
  rounding : Rounding
  numbering : Numbering
  sendingMode : SendingMode
  afterCompletion : AfterCompletion
  unmatchedAction : UnmatchedAction
  /-- K (R77). -/
  multiplier : Nat
  /-- g (R73). -/
  gain : Nat
  endKey : Key
  ratioLo : Nat
  ratioHi : Nat
  trapMask : CondSet
  faultPersistence : Nat
  /-- G (R20). -/
  guard : Nat
  bMin : Nat
  bMax : Nat
  mMin : Nat
  fMax : Nat
  rel : Nat
  pNom : Nat
  pLo : Nat
  pHi : Nat
  tidMin : Nat
  tidMax : Nat
  /-- T_c (R98). -/
  tComplete : Nat
  tOn : Nat
  tOff : Nat
  aLow : Nat
  aHigh : Nat
  deriving DecidableEq, Repr

/-- The profile outcome of a take-up or adoption, with the field number of a refusal (R165). -/
inductive ProfileOutcome where
  | adopted
  | deferred
  | rejectedCheck
  | rejectedField (field : Nat)
  deriving DecidableEq, Repr

/-- The outcome of a request (R165, R175). -/
inductive RequestOutcome where
  | done
  | wrongState
  | noRoom
  | badOperand
  | unknownRequest
  deriving DecidableEq, Repr

/-! ## The line record (Dial Decoder), with the line's key store (Key Stores) -/

/-- One line record: loop conditioning (R4 to R11), call state (R17), train (R40), period estimate (R66), flag sets
(R84), call digits and completion timer (R97, R98), take-up state (R165), key store (R120), attached sender (R133). -/
structure Line where
  /-- The integrator I, 0 to D (R4). -/
  integrator : Nat
  /-- The debounced loop state (R7). -/
  loop : LoopState
  /-- Ticks of the current debounced phase, 0 to 65535 (R8). -/
  phaseTimer : Nat
  /-- Consecutive FAULT samples in a conditioning state (R6). -/
  faultRun : Nat
  /-- Consecutive non-FAULT samples in BLOCKED(FAULT) (R11). -/
  clearRun : Nat
  /-- MARGINAL has been raised for the train in progress (R9). -/
  marginalRaised : Bool
  /-- MODEL'S OWN: the line's last sample raised the fault run or the clear run, and the run then stood at the
  persistence of the profile adopted at that sample: the block of R10 or the return of R12 is due (assumption log 9). -/
  runTestMet : Bool
  /-- MODEL'S OWN: how many samples still to come belong to ticks up to that of the line's UNBLOCK; the line takes none
  of them (R31; assumption log 19). -/
  skipSamples : Nat
  main : MainState
  sub : SubState
  /-- The resume target (R17). -/
  resumeTarget : Option ResumeTarget
  cls : LineClass
  adopted : Option Profile
  pendingProfile : Option Profile
  /-- Running length of the current break or make, through absorbed glitches (R41). -/
  intervalTimer : Nat
  /-- The held make length m (R40). -/
  heldMake : Nat
  /-- The pulse count n, 0 to 15 (R54). -/
  pulses : Nat
  /-- The pulse break length b (R40). -/
  pulseBreak : Nat
  /-- The reopened mark (R44). -/
  reopened : Bool
  /-- T_id of the make in progress inside a train, or none (R55). -/
  threshold : Option Nat
  /-- Pest, in sixteenths of a tick (R66). -/
  estimate : Nat
  /-- The train cause flags (R84). -/
  causes : CondSet
  sticky : CondSet
  lastCauses : CondSet
  /-- The call digits, oldest first (R97). -/
  digits : List Key
  /-- The completion timer: none is stopped, some e is running with elapsed count e (R98). -/
  completionTimer : Option Nat
  /-- The key store, oldest first (R120). -/
  store : List StoredKey
  /-- The attached-sender field (R131). -/
  attached : Option SenderNo
  profileEdition : Option Byte
  profileOutcome : ProfileOutcome
  adoptedEdition : Option Byte
  requestEdition : Option Byte
  requestOutcome : RequestOutcome
  deriving DecidableEq, Repr

/-- A line record after a reset of any kind (R16, R38, R40, R66, R84, R97, R98, R120, R133, R165). -/
def Line.reset : Line where
  integrator := 0
  loop := .opened
  phaseTimer := 0
  faultRun := 0
  clearRun := 0
  marginalRaised := false
  runTestMet := false
  skipSamples := 0
  main := .outOfService
  sub := .idle
  resumeTarget := none
  cls := .normal
  adopted := none
  pendingProfile := none
  intervalTimer := 0
  heldMake := 0
  pulses := 0
  pulseBreak := 0
  reopened := false
  threshold := none
  estimate := 0
  causes := 0
  sticky := 0
  lastCauses := 0
  digits := []
  completionTimer := none
  store := []
  attached := none
  profileEdition := none
  profileOutcome := .adopted
  adoptedEdition := none
  requestEdition := none
  requestOutcome := .done

/-! ## The Scan Port -/

/-- The scan frame shift state (R1, R2, R16). SCLK edges have no step of their own: a frame is either idle (bit count
0, SSTB deasserted, SCLK low) or shifting. -/
structure ScanPort where
  /-- A frame has been strobed and its 192 bits are being shifted in. -/
  shifting : Bool
  /-- Ticks that arrived while a frame was shifting and whose frames are still to be strobed (R2). -/
  owed : Nat
  /-- The tick in which the frame now shifting was strobed (R1). -/
  strobedAt : DevTime
  /-- The tick the samples of the last complete frame are dated to (R1). -/
  sampleAt : DevTime
  /-- MODEL'S OWN: the samples of the tick in progress have been taken (R99 tests the completion timers after them). -/
  tickSampled : Bool
  deriving DecidableEq, Repr

/-! ## The Plan Matcher -/

/-- A valid plan entry (R100); a prefix key of none is the wildcard ANY, a length of none is OPEN. -/
structure PlanEntry where
  prefixKeys : List (Option Key)
  length : Option Nat
  endKey : Bool
  cls : LineClass
  deriving DecidableEq, Repr

/-- A position of the plan table (R100). -/
inductive PlanPosition where
  | vacant
  | ignored
  | valid (entry : PlanEntry)
  deriving DecidableEq, Repr

/-- The Plan Matcher: the 64 positions in order, the adopted edition and the ignored count (R100). -/
structure PlanMatcher where
  table : List PlanPosition
  edition : Option Byte
  ignored : Nat
  deriving DecidableEq, Repr

/-- What an evaluation answers (R103). -/
structure Evaluation where
  /-- The selected entry and its position. -/
  selected : Option (Nat × PlanEntry)
  /-- Whether any entry is live. -/
  live : Bool
  /-- Whether the selected entry is blocked. -/
  blocked : Bool
  deriving DecidableEq, Repr

/-- The outcomes of a number completion (R114). -/
inductive NumberOutcome where
  | exact
  | timeout
  | unmatched
  | full
  | forced
  deriving DecidableEq, Repr

/-- The outcomes of a plan load (R182). -/
inductive PlanOutcome where
  | adopted
  | rejectedCheck
  deriving DecidableEq, Repr

/-! ## The Sender Pool -/

/-- The states of a sender (07, "Senders"). -/
inductive SenderState where
  | free
  | on
  | gap
  | paused
  deriving DecidableEq, Repr

/-- One sender (R133). -/
structure Sender where
  state : SenderState
  line : Option LineNo
  /-- Ticks since the boundary at which the current burst or gap began. -/
  timer : Nat
  /-- The key being sent. -/
  key : Option Key
  keysSent : Nat
  flushMark : Bool
  resendMark : Bool
  accLow : BitVec 16
  accHigh : BitVec 16
  /-- In ON: the burst has begun (R150 tells the two apart). -/
  begun : Bool
  /-- MODEL'S OWN: in ON with no burst begun, the tick boundary at which it begins has come (R134). -/
  burstDue : Bool
  deriving DecidableEq, Repr

/-- A sender after a reset of any kind (R133, R157). -/
def Sender.reset : Sender where
  state := .free
  line := none
  timer := 0
  key := none
  keysSent := 0
  flushMark := false
  resendMark := false
  accLow := 0
  accHigh := 0
  begun := false
  burstDue := false

/-- An entry of the wait list: the line and its joining time, the order of its join (R126). -/
structure WaitEntry where
  line : LineNo
  joined : Nat
  deriving DecidableEq, Repr

/-- The Sender Pool (R126, R133). -/
structure SenderPool where
  senders : Vector Sender 16
  /-- The wait list, head first. -/
  waitList : List WaitEntry
  /-- MODEL'S OWN: how many joins have been taken, the next joining time (R127). -/
  joins : Nat
  deriving DecidableEq, Repr

/-- A path state (R147). -/
inductive PathState where
  | pass
  | mute
  | tone
  deriving DecidableEq, Repr

/-! ## The Highway Interface -/

/-- The Highway Interface (R144 to R150). The path states are derived (R147), so they are no field. -/
structure Highway where
  /-- The click-guard delay line of each channel, oldest sample first (R146). -/
  delay : Vector (List Sample) 96
  /-- Line-side slots taken in the current frame (R144). -/
  slot : Nat
  /-- MODEL'S OWN: the delayed sample of each channel in the current frame, the oldest of its delay line as the frame
  started, whether its slot has been taken since or not (R146; assumption log 10). -/
  delayed : Vector Sample 96
  /-- XTXD in the current frame: the sample of each slot, or none when the slot is not driven (R145, R150, R156). -/
  xtxd : Vector (Option Sample) 96
  deriving DecidableEq, Repr

/-! ## The Area Controller -/

/-- The port states (R213). -/
inductive PortState where
  | idle
  | starting
  | running
  | halting
  | faulted
  deriving DecidableEq, Repr

/-- What the port queue holds (R161). -/
inductive PortRequest where
  | visit
  | journal
  deriving DecidableEq, Repr

/-- What a sequence in flight is (R161, R164, R179, R195, R218). -/
inductive SequenceKind where
  | starting
  | lineVisit (line : LineNo)
  | headerVisit
  | journal
  deriving DecidableEq, Repr

/-- How far a sequence is: its reads, its reads all complete, a plan load's reads, those all complete, its writes,
those all complete. -/
inductive Stage where
  | reading
  | readDone
  | planReading
  | planReadDone
  | writing
  | writeDone
  deriving DecidableEq, Repr

/-- A port sequence in flight (R161). -/
structure Sequence where
  kind : SequenceKind
  stage : Stage
  /-- BUSGNT_N has answered BUSREQ_N (R218). -/
  granted : Bool
  /-- The area base the sequence's addresses start from (R214). -/
  base : Word
  /-- The words read so far in this reading stage, oldest first. -/
  got : List Word
  /-- The plan image address of a header visit, two low bits 0 (R159, R180). -/
  planAddress : Word
  /-- The plan edition read by a header visit (R179). -/
  planEdition : Byte
  /-- The visit time of a line visit: that of its take-up (R164). -/
  visitTime : DevTime
  /-- The words to write, in order, once they are composed (R178, R179, R195). -/
  out : Option (List Word)
  /-- Writes completed. -/
  written : Nat
  /-- The number of records a journal sequence writes (R195). -/
  count : Nat
  deriving DecidableEq, Repr

/-- The Area Controller (R161, R162, R179 to R183, R213, R218). -/
structure AreaController where
  port : PortState
  /-- A HALT has been taken in STARTING (R215). -/
  haltTaken : Bool
  /-- The area base taken up by the last good header (R214, R218). -/
  base : Word
  /-- The sweep position, 0 to 96 (R162). -/
  sweep : Fin 97
  /-- The queue of requested sequences, oldest first (R161). -/
  queue : List PortRequest
  inFlight : Option Sequence
  /-- Tick boundaries passed while the port waits on the bus (R218). -/
  busWait : Nat
  /-- The plan edition taken up (R182). -/
  planTakenUp : Option Byte
  /-- The outcome and ignored count of the last completed plan load (R183). -/
  loadOutcome : PlanOutcome
  loadIgnored : Nat
  deriving DecidableEq, Repr

/-! ## The Journal Unit -/

/-- The states of the clock (R205). -/
inductive ClockState where
  | free
  | qualifying
  | locked
  | holdover
  deriving DecidableEq, Repr

/-- Dispositions of DIGIT and FLASH records (R61, R63). -/
inductive Disposition where
  | none
  | collected
  | collectedStored
  | collectedDropped
  | stored
  | dropped
  | ignored
  | discarded
  deriving DecidableEq, Repr

/-- Why a sender became free (R142). -/
inductive SendReason where
  | empty
  | flushed
  | cut
  deriving DecidableEq, Repr

/-- The kind of a record with the fields of its kind (R188, R191). -/
inductive RecordBody where
  | seize
  | digit (key : Option Key) (pulses : Nat) (disposition : Disposition) (causes : CondSet) (estimate : Nat)
  | flash (disposition : Disposition)
  | number (outcome : NumberOutcome) (length : Nat) (entry : Option Nat) (cls : LineClass) (causes : CondSet)
  | sendDone (sender : SenderNo) (keysSent : Nat) (reason : SendReason)
  | release (discarded : Nat)
  | exception (trapped : CondSet) (prior : MainState)
  | block (reason : BlockReason)
  | unblock (reason : BlockReason)
  | profile (edition : Byte) (outcome : ProfileOutcome)
  | plan (edition : Byte) (outcome : PlanOutcome) (ignored : Nat)
  | clock (state : ClockState)
  | gap (lost : Nat)
  deriving DecidableEq, Repr

/-- A record in staging: complete but for its sequence number (R191). -/
structure Record where
  line : Option LineNo
  time : DevTime
  body : RecordBody
  deriving DecidableEq, Repr

/-- The Journal Unit (R190). -/
structure JournalUnit where
  /-- The journal base, two low bits 0 (R189). -/
  base : Word
  /-- N, the number of slots (R189). -/
  slots : Nat
  head : Nat
  heldRelease : Nat
  wakeCount : Nat
  sequence : Nat
  /-- The staging FIFO, oldest first. -/
  staging : List Record
  gap : Nat
  publish : Bool
  holdOff : Bool
  /-- MODEL'S OWN: a tick boundary has come since the hold-off was set, so that it clears there (R194). -/
  holdOffDue : Bool
  deriving DecidableEq, Repr

/-! ## The Clock and Time Unit -/

/-- A divider window: tick boundaries and internal cycles counted since it opened (R210). -/
structure Window where
  ticks : Nat
  cycles : Nat
  deriving DecidableEq, Repr

/-- A time setting (R212). -/
structure TimeSetting where
  seconds : Word
  edition : Byte
  deriving DecidableEq, Repr

/-- The Clock and Time Unit (R204, R205). -/
structure Clock where
  state : ClockState
  lockedSince : Bool
  qualCount : Nat
  lockDue : Bool
  /-- The spacing timer. -/
  spacing : Nat
  missing : Nat
  divider : Nat
  /-- The divider window; none is empty. -/
  window : Option Window
  /-- MODEL'S OWN: the cycle count of a window whose 256th boundary has come and whose close has not been taken. -/
  windowDone : Option Nat
  /-- The number of the current line-side frame in its tick, 0 to 3 (R204). -/
  frame : Nat
  /-- Internal cycles from the start of the current frame to the last step that fell in it (R204). -/
  frameAge : Nat
  seconds : Word
  tick : Nat
  /-- MODEL'S OWN: the boundary just produced is a rollover whose TIME_ROLLOVER has not been taken; Clock.now already
  reads the time after it (R211). -/
  rolloverDue : Bool
  timeTakenUp : Option Byte
  pendingTime : Option TimeSetting
  timeAdopted : Option Byte
  /-- MODEL'S OWN: how many losses of the reference have ended LOCKED; it picks the free value Config.expiriesFirst and is kept
  through resets (R140; assumption log 11). -/
  losses : Nat
  deriving DecidableEq, Repr

/-! ## The register window and the reset state of the part -/

/-- The three reset causes (R216, R219). -/
inductive ResetCause where
  | powerOn
  | pin
  | soft
  deriving DecidableEq, Repr

/-- The fault codes of STATUS (R216). -/
inductive FaultCode where
  | none
  | busError
  | busTimeout
  | badHeader
  deriving DecidableEq, Repr

/-- The registers that are not read from another block (R213 to R217). CONTROL holds nothing and reads 0. -/
structure Registers where
  areaBase : Word
  resetCause : ResetCause
  powerOnFlag : Bool
  faultCode : FaultCode
  /-- ATTENTION: bit 0 JOURNAL, 1 URGENT, 2 FAULT, 3 CLOCK. -/
  attention : BitVec 4
  deriving DecidableEq, Repr

/-- Whether the part is held in reset, in the start-up hold, or working (R219). -/
inductive PartPhase where
  | inReset
  | hold
  | working
  deriving DecidableEq, Repr

/-- The reset state of the part: its phase, and which of the two causes that last are present (R219). -/
structure Part where
  phase : PartPhase
  supplyLow : Bool
  resetLow : Bool
  deriving DecidableEq, Repr

/-! ## Shared memory as the part has written it -/

/-- The bytes the part has written to shared memory, address and byte, in one canonical form: addresses strictly
rising. An address not listed has no value the part gave it (R160). -/
abbrev Memory := List Host.Cell

/-! ## The state -/

/-- The state of the part, and the queue of waiting commands, first in, first out. -/
structure State where
  pending : List Instr
  part : Part
  regs : Registers
  scan : ScanPort
  lines : Vector Line 96
  plan : PlanMatcher
  pool : SenderPool
  hwy : Highway
  arc : AreaController
  jnl : JournalUnit
  clk : Clock
  mem : Memory
  deriving DecidableEq, Repr

/-- Device time after a reset (R205). -/
def DevTime.zero : DevTime := ⟨0, 0⟩

/-- The part right after a POWER_ON reset whose supply has come into its operating range: every block at its
after-reset values (R16, R38, R100, R126, R133, R146, R157, R161, R162, R190, R205, R214, R216, R217), in the start-up
hold (R219), and no command waiting. -/
def State.reset : State where
  pending := []
  part := ⟨.hold, false, false⟩
  regs := ⟨0, .powerOn, true, .none, 0⟩
  scan := ⟨false, 0, .zero, .zero, false⟩
  lines := Vector.replicate 96 .reset
  plan := ⟨List.replicate 64 .vacant, none, 0⟩
  pool := ⟨Vector.replicate 16 .reset, [], 0⟩
  hwy := ⟨Vector.replicate 96 (List.replicate 32 0), 0, Vector.replicate 96 0, Vector.replicate 96 none⟩
  arc := ⟨.idle, false, 0, 0, [], none, 0, none, .adopted, 0⟩
  jnl := ⟨0, 64, 0, 0, 0, 0, [], 0, false, false, false⟩
  clk := ⟨.free, false, 0, false, 0, 0, 10240, none, none, 0, 0, 0, 0, false, none, none, none, 0⟩
  mem := []

end Sys2Proof.Machine
end

