-- ==== Sys2Proof/Machine/Plan.lean ====
section
/-! DEFINITION. The Plan Matcher: agreement, liveness, selection and blocking of plan entries (R104), and the decision
after a digit (R106 to R108). -/

namespace Sys2Proof.Machine

/-- A prefix key agrees with a digit: ANY with every digit (R104). -/
def keyAgrees (p : Option Key) (d : Key) : Bool := p == none || p == some d

/-- The entry is live: it agrees with the call digits over the first min(c, prefix length) positions (R104). -/
def PlanEntry.live (e : PlanEntry) (digits : List Key) : Bool :=
  (e.prefixKeys.zip digits).all fun x => keyAgrees x.1 x.2

/-- The entry holds: it is live and the call digits reach its prefix length (R104). -/
def PlanEntry.holds (e : PlanEntry) (digits : List Key) : Bool :=
  e.live digits && decide (e.prefixKeys.length ≤ digits.length)

/-- The valid entries with their positions, in position order, from position i on. -/
def validFrom : Nat → List PlanPosition → List (Nat × PlanEntry)
  | _, [] => []
  | i, .valid e :: rest => (i, e) :: validFrom (i + 1) rest
  | i, .vacant :: rest => validFrom (i + 1) rest
  | i, .ignored :: rest => validFrom (i + 1) rest

/-- The longest prefix, the lowest position among equals: a later entry replaces only a shorter prefix (R104). -/
def longest : List (Nat × PlanEntry) → Option (Nat × PlanEntry)
  | [] => none
  | x :: rest =>
    match longest rest with
    | some y => if x.2.prefixKeys.length < y.2.prefixKeys.length then some y else some x
    | none => some x

/-- The selected entry: the holding entry with the longest prefix (R104). -/
def selectEntry (table : List PlanPosition) (digits : List Key) : Option (Nat × PlanEntry) :=
  longest ((validFrom 0 table).filter fun x => x.2.holds digits)

/-- The selected entry is blocked: some live entry has a longer prefix and does not yet hold (R104). -/
def blockedBy (table : List PlanPosition) (digits : List Key) (selected : Option (Nat × PlanEntry)) : Bool :=
  match selected with
  | some x => (validFrom 0 table).any fun y =>
      y.2.live digits && !y.2.holds digits && decide (x.2.prefixKeys.length < y.2.prefixKeys.length)
  | none => false

/-- What the Plan Matcher answers for a string of call digits (R103, R104). -/
def evaluate (table : List PlanPosition) (digits : List Key) : Evaluation :=
  { selected := selectEntry table digits
    live := (validFrom 0 table).any fun x => x.2.live digits
    blocked := blockedBy table digits (selectEntry table digits) }

/-- The selected entry is EXACT n with n reached (R106). -/
def exactReached (ev : Evaluation) (c : Nat) : Bool :=
  match ev.selected with
  | some (_, e) => (match e.length with
    | some n => decide (n ≤ c)
    | none => false)
  | none => false

/-- The outcome of an evaluation after a digit, if the number completes there (R106 to R108). -/
def outcomeAfterDigit (action : UnmatchedAction) (ev : Evaluation) (c : Nat) : Option NumberOutcome :=
  if exactReached ev c && !ev.blocked then some .exact
  else if !ev.live && action == .completeNow then some .unmatched
  else if Config.maxDigits ≤ c then some .full
  else none

/-- The outcome at the expiry of the completion timer (R109). -/
def outcomeAtExpiry (ev : Evaluation) : NumberOutcome := if ev.selected.isSome then .timeout else .unmatched

end Sys2Proof.Machine
end

