-- ==== Sys2Proof/Machine/Flags.lean ====
section
/-! DEFINITION. The flag computations: the nine conditions and the sets of them (R84, R184), the trap mask (R85), and the
four bits of ATTENTION (R217). -/

namespace Sys2Proof.Machine

/-! ## Conditions, in the bit order of R184 -/

def Cond.glitch : CondSet := 0x001
def Cond.ratio : CondSet := 0x002
def Cond.speed : CondSet := 0x004
def Cond.overcount : CondSet := 0x008
def Cond.longBreak : CondSet := 0x010
def Cond.marginal : CondSet := 0x020
def Cond.storeFull : CondSet := 0x040
def Cond.callFull : CondSet := 0x080
def Cond.unmatched : CondSet := 0x100

/-- The set holding c alone when b holds, and the empty set otherwise. -/
def Cond.when (b : Bool) (c : CondSet) : CondSet := if b then c else 0

/-- The trap mask that governs a line: its adopted profile's; empty with no adopted profile (R84). -/
def Line.trapMask (l : Line) : CondSet :=
  match l.adopted with
  | some p => p.trapMask
  | none => 0

/-- The members of a set that the line's trap mask holds (R85, R89). -/
def Line.trapped (l : Line) (set : CondSet) : CondSet := set &&& l.trapMask

/-- Whether the set is trapped: one or more members are in the mask (R85, R88). -/
def Line.traps (l : Line) (set : CondSet) : Bool := l.trapped set != 0

/-! ## ATTENTION (R217) -/

def Attention.journal : BitVec 4 := 0x1
def Attention.urgent : BitVec 4 := 0x2
def Attention.fault : BitVec 4 := 0x4
def Attention.clock : BitVec 4 := 0x8

/-- Set ATTENTION bits; a bit already set stays set (R217). -/
def setAttention (bits : BitVec 4) (s : State) : State :=
  { s with regs := { s.regs with attention := s.regs.attention ||| bits } }

/-- ATTN_N is low (false) while one or more bits are set (R217). -/
def attnN (s : State) : Bool := s.regs.attention == 0

end Sys2Proof.Machine
end

