-- ==== Sys2Proof/Machine/Operands.lean ====
section
/-! DEFINITION. The bit codings of what the host writes: scan frames, the words of a descriptor, of the common header and
of a plan image, and the fields packed into the words the part writes (R1, R159, R167 to R170, R181, R185 to R188). -/

namespace Sys2Proof.Machine

/-! ## Fields of words -/

/-- Bits lo to lo + width - 1 of a word, as a number. -/
def field (w : Word) (lo width : Nat) : Nat := w.toNat / 2 ^ lo % 2 ^ width

/-- Byte i of a word, byte 0 the least significant (little-endian, 00_scope.md). -/
def byteOf (w : Word) (i : Nat) : Byte := BitVec.ofNat 8 (field w (8 * i) 8)

/-- Byte i of a run of words laid out from offset 0. -/
def byteAt (ws : List Word) (i : Nat) : Nat := field (ws.getD (i / 4) 0) (8 * (i % 4)) 8

/-- The 16-bit half at byte offset i (i even). -/
def halfAt (ws : List Word) (i : Nat) : Nat := byteAt ws i + 256 * byteAt ws (i + 1)

/-- A word built of fields (value, low bit, width), each cut to its width; unassigned bits are 0 (R184). -/
def pack : List (Nat × Nat × Nat) → Word
  | [] => 0
  | (v, lo, width) :: rest => BitVec.ofNat 32 (v % 2 ^ width * 2 ^ lo) ||| pack rest

/-- A truth value as a bit. -/
def bit (b : Bool) : Nat := if b then 1 else 0

/-- An address with its two low bits taken as 0 (R159, R189, R214). -/
def aligned (a : Word) : Word := a &&& 0xFFFFFFFC

/-- The 16-bit sum of every half of a run of words, carries out of 16 bits discarded (R168, R181). -/
def halfSum (ws : List Word) : Nat :=
  (ws.map fun w => field w 0 16 + field w 16 16).sum % 65536

/-! ## Loop codes (R1) -/

/-- The loop code of line n: bit 2n of the frame is its high bit, bit 2n + 1 its low bit (R1). -/
def frameCode (frame : BitVec 192) (n : LineNo) : LoopCode :=
  match frame.getLsbD (2 * n.val), frame.getLsbD (2 * n.val + 1) with
  | false, false => .opened
  | false, true => .closed
  | true, false => .marginal
  | true, true => .fault

/-! ## Scaled time codes (R167) -/

/-- A scaled time code: mantissa in the low five bits, exponent in the high three; exponents 6 and 7 are 31744. -/
def timeCode (b : Nat) : Nat :=
  if 6 ≤ b / 32 % 8 then Config.maxTime else b % 32 * 4 ^ (b / 32 % 8)

/-! ## Profiles (R167 to R170, R186)

`ws` is the profile's eight words; byte offsets are the profile's own (R186, in brackets). -/

/-- What the check of a profile answers (R168, R170). -/
inductive ProfileCheck where
  | badCheck
  | badField (field : Nat)
  | good (p : Profile)
  deriving DecidableEq, Repr

def marginalPolicyOf (v : Nat) : MarginalPolicy :=
  if v = 1 then .asOpen else if v = 2 then .asClosed else .hold

def roundingOf (v : Nat) : Rounding :=
  if v = 1 then .down else if v = 2 then .up else .nearest

def numberingOf (v : Nat) : Numbering :=
  if v = 1 then .inverse else if v = 2 then .offset else .direct

/-- The clamp of D (R169). -/
def clampDepth (v : Nat) : Nat := if v = 0 then 1 else min v 8

/-- The clamp of g (R169). -/
def clampGain (v : Nat) : Nat := if v = 0 then 1 else min v 4

/-- The clamp of K (R169). -/
def clampMultiplier (v : Nat) : Nat := max v 8

/-- The clamp of an amplitude (R155, R169). -/
def clampAmplitude (v : Nat) : Nat := min v 32767

/-- The flash mapping code (R186): 0-15 a key, 31 NONE. -/
def flashMappingOf (v : Nat) : Option Key := if v < 16 then some (Fin.ofNat 16 v) else none

/-- Every field of the profile, decoded and clamped (R167, R169, R186), before the consistency checks. -/
def readProfile (ws : List Word) : Profile where
  inService := byteAt ws 0 % 2 = 1
  muteEnable := byteAt ws 0 / 2 % 2 = 1
  flashRestart := byteAt ws 0 / 4 % 2 = 1
  flashMapping := flashMappingOf (byteAt ws 0 / 8)
  depth := clampDepth (byteAt ws 1 % 16)
  marginalPolicy := marginalPolicyOf (byteAt ws 1 / 16 % 4)
  rounding := roundingOf (byteAt ws 1 / 64)
  numbering := numberingOf (byteAt ws 2 % 4)
  sendingMode := if byteAt ws 2 / 4 % 4 = 1 then .enBloc else .overlap
  afterCompletion := if byteAt ws 2 / 16 % 4 = 1 then .ignore else .forward
  unmatchedAction := if byteAt ws 2 / 64 = 1 then .atTimeout else .completeNow
  multiplier := clampMultiplier (byteAt ws 3 % 64)
  gain := clampGain (byteAt ws 4 % 8)
  endKey := Fin.ofNat 16 (byteAt ws 4 / 16)
  ratioLo := byteAt ws 5
  ratioHi := byteAt ws 6
  trapMask := BitVec.ofNat 9 (byteAt ws 7 + 256 * (byteAt ws 8 % 2))
  faultPersistence := timeCode (byteAt ws 9)
  guard := timeCode (byteAt ws 10)
  bMin := timeCode (byteAt ws 11)
  bMax := timeCode (byteAt ws 12)
  mMin := timeCode (byteAt ws 13)
  fMax := timeCode (byteAt ws 14)
  rel := timeCode (byteAt ws 15)
  pNom := timeCode (byteAt ws 16)
  pLo := timeCode (byteAt ws 17)
  pHi := timeCode (byteAt ws 18)
  tidMin := timeCode (byteAt ws 19)
  tidMax := timeCode (byteAt ws 20)
  tComplete := timeCode (byteAt ws 21)
  tOn := timeCode (byteAt ws 22)
  tOff := timeCode (byteAt ws 23)
  aLow := clampAmplitude (halfAt ws 24)
  aHigh := clampAmplitude (halfAt ws 26)

/-- The seventeen checks of R170 in their order, each with the field number it reports. -/
def profileChecks (ws : List Word) : List (Bool × Nat) :=
  let p := readProfile ws
  [ (decide (16 ≤ byteAt ws 0 / 8 ∧ byteAt ws 0 / 8 ≤ 30), 1),
    (decide (byteAt ws 1 / 16 % 4 = 3), 2),
    (decide (byteAt ws 1 / 64 = 3), 3),
    (decide (byteAt ws 2 % 4 = 3), 4),
    (decide (2 ≤ byteAt ws 2 / 4 % 4), 5),
    (decide (2 ≤ byteAt ws 2 / 16 % 4), 6),
    (decide (2 ≤ byteAt ws 2 / 64), 7),
    (decide (100 < p.ratioHi), 9),
    (decide (p.ratioHi < p.ratioLo), 8),
    (decide (p.bMax < p.bMin), 10),
    (decide (p.rel ≤ p.bMax), 12),
    (decide (p.fMax ≠ 0 ∧ (p.fMax ≤ p.bMax ∨ p.rel ≤ p.fMax)), 11),
    (decide (p.pLo = 0), 13),
    (decide (p.pNom < p.pLo), 14),
    (decide (p.pHi < p.pNom), 15),
    (decide (p.tidMax < p.tidMin), 16),
    (decide (p.tOn = 0), 17) ]

/-- The field number of the first check that fails (R170). -/
def firstFailure : List (Bool × Nat) → Option Nat
  | [] => none
  | (true, f) :: _ => some f
  | (false, _) :: rest => firstFailure rest

/-- The check of a profile: the check word (R168), the clamps (R169), then the consistency checks (R170). -/
def checkProfile (ws : List Word) : ProfileCheck :=
  if halfSum ws = 0 then
    match firstFailure (profileChecks ws) with
    | some f => .badField f
    | none => .good (readProfile ws)
  else .badCheck

/-! ## Requests (R175, R186) -/

/-- The first `count` operand keys of an INJECT, key i in bits 4i to 4i + 3 (R186). -/
def operandKeys (count : Nat) (keys : Word) : List Key :=
  (List.range count).map fun i => Fin.ofNat 16 (field keys (4 * i) 4)

/-! ## Plan images (R100, R101, R181, R187) -/

/-- The entry count of a plan image: the count word's low byte, clamped to 64 (R181). -/
def entryCount (countWord : Word) : Nat := min (field countWord 0 8) Config.planPositions

/-- How many words a plan load reads: the count word, two words an entry, the final word (R181). -/
def planWords (countWord : Word) : Nat := 2 * entryCount countWord + 2

/-- A prefix position as coded: 15 is ANY, 0 to 9 a digit (R100). -/
def prefixKeyOf (v : Nat) : Option Key := if v = 15 then none else some (Fin.ofNat 16 v)

/-- The classification of one entry's two words (R101). -/
def classify (w0 w1 : Word) : PlanPosition :=
  let len := field w1 0 4
  let value := field w1 8 5
  let codes := (List.range len).map fun j => field w0 (4 * j) 4
  if field w1 16 1 = 0 then .vacant
  else if len = 0 ∨ 8 < len ∨ (1 ≤ value ∧ value ≤ 24 ∧ value < len) ∨ 24 < value
      ∨ (codes.any fun c => decide (10 ≤ c ∧ c ≤ 14)) = true then .ignored
  else .valid
    { prefixKeys := codes.map prefixKeyOf
      length := if value = 0 then none else some value
      endKey := field w1 17 1 = 1
      cls := if field w1 18 1 = 1 then .urgent else .normal }

/-- The positions classified from the words of the entries, two words each (R101). -/
def classifyAll : List Word → List PlanPosition
  | w0 :: w1 :: rest => classify w0 w1 :: classifyAll rest
  | _ => []

/-- The 64 positions of a loaded image: the positions read, and vacant ones beyond the count (R101). -/
def loadedTable (got : List Word) : List PlanPosition :=
  let c := entryCount (got.getD 0 0)
  let read := classifyAll ((got.drop 1).take (2 * c))
  read ++ List.replicate (Config.planPositions - read.length) .vacant

/-- The number of ignored entries of a table (R101). -/
def ignoredCount (table : List PlanPosition) : Nat := table.countP (· == .ignored)

/-! ## The header words read at STARTING (R185, R218) -/

/-- N = 64 · 2^k (R189). -/
def journalSlots (k : Nat) : Nat := 64 * 2 ^ k

/-- The four STARTING words are a good header (R218): format 1, 96 lines, a length code of at most 6, a release index
below N. -/
def headerGood (got : List Word) : Bool :=
  let w := got.getD 0 0
  decide (field w 0 8 = 1 ∧ field w 8 8 = Config.lineCount ∧ field w 16 8 ≤ 6
    ∧ field (got.getD 3 0) 0 16 < journalSlots (field w 16 8))

/-! ## Register writes (R213 to R217) -/

/-- The command of a word written to CONTROL: its bits 0 to 2 (R213, R215). -/
def controlCommand (data : Word) : Instr :=
  match field data 0 3 with
  | 1 => .run
  | 2 => .halt
  | 3 => .clearFault
  | 4 => .softReset
  | f => .ignoredCommand (BitVec.ofNat 3 f)

/-- The command that a host's write of a register is: only address bits 2 and 3 are decoded (R213). -/
def registerWrite (address data : Word) : Instr :=
  match field address 2 2 with
  | 0 => .areaBaseWrite data
  | 1 => controlCommand data
  | 2 => .statusWrite data
  | _ => .attentionWrite data

end Sys2Proof.Machine
end

