-- ==== Sys2Proof/Machine/Ops.lean ====
section
/-! DEFINITION. The named operations over the state that every family uses: reading and writing line and sender records,
the memory the part writes, device time, handing records to staging and asking the port for sequences. -/

namespace Sys2Proof.Machine

/-- The outcome of a step that is taken when it is due. A step whose condition does not hold is no event of the part:
it leaves every block as it is (assumption log 2). -/
def whenDue (due : Bool) (s t : State) : Host.Outcome State Fault Refusal :=
  .next (if due then t else s)

/-- The part is neither held in reset nor in the start-up hold (R219). -/
def State.working (s : State) : Bool := s.part.phase == .working

/-! ## Line and sender records -/

/-- The record of line n. -/
def State.line (s : State) (n : LineNo) : Line := s.lines[n]

/-- Replace the record of line n. -/
def State.setLine (s : State) (n : LineNo) (l : Line) : State := { s with lines := s.lines.set n l }

/-- Sender k. -/
def State.sender (s : State) (k : SenderNo) : Sender := s.pool.senders[k]

/-- Replace sender k. -/
def State.setSender (s : State) (k : SenderNo) (x : Sender) : State :=
  { s with pool := { s.pool with senders := s.pool.senders.set k x } }

/-- The same change on every line record. -/
def State.mapLines (s : State) (f : Line → Line) : State :=
  { s with lines := ⟨⟨s.lines.toList.map f⟩, by simp⟩ }

/-- The same change on every sender. -/
def State.mapSenders (s : State) (f : Sender → Sender) : State :=
  { s with pool := { s.pool with senders := ⟨⟨s.pool.senders.toList.map f⟩, by simp⟩ } }

/-- A count one higher, not above the 16-bit limit (R6, R8, R11, R41, R133, R192). -/
def bump (v : Nat) : Nat := min (v + 1) Config.countLimit

/-! ## Memory -/

/-- Store one byte, keeping the addresses strictly rising. -/
def Memory.writeByte (a : Nat) (b : Byte) : Memory → Memory
  | [] => [(a, b)]
  | (a', b') :: rest =>
    if a < a' then (a, b) :: (a', b') :: rest
    else if a = a' then (a, b) :: rest
    else (a', b') :: Memory.writeByte a b rest

/-- The byte the part last wrote at an address; none where it has written nothing. -/
def Memory.readByte (a : Nat) : Memory → Option Byte
  | [] => none
  | (a', b') :: rest => if a = a' then some b' else Memory.readByte a rest

/-- Store a word at an address, least significant byte lowest (00_scope.md, Shared memory). -/
def Memory.writeWord (a : Word) (w : Word) (m : Memory) : Memory :=
  Memory.writeByte (a + 3).toNat (byteOf w 3)
    (Memory.writeByte (a + 2).toNat (byteOf w 2)
      (Memory.writeByte (a + 1).toNat (byteOf w 1)
        (Memory.writeByte a.toNat (byteOf w 0) m)))

/-- The word the part last wrote at an address; none where it has not written all four bytes. -/
def Memory.readWord (a : Word) (m : Memory) : Option Word :=
  match m.readByte a.toNat, m.readByte (a + 1).toNat, m.readByte (a + 2).toNat, m.readByte (a + 3).toNat with
  | some b0, some b1, some b2, some b3 => some (b3 ++ b2 ++ b1 ++ b0)
  | _, _, _, _ => none

/-- The canonical form: addresses strictly rising. -/
abbrev Memory.wf (m : Memory) : Prop := m.Pairwise fun x y => x.1 < y.1

/-! ## Device time (R211, R212) -/

/-- The rollover of device time: seconds from a pending setting, whose edition is then adopted, or one more modulo
2^32; tick-in-second 0. -/
def Clock.roll (c : Clock) : Clock :=
  match c.pendingTime with
  | some t =>
    { c with seconds := t.seconds, tick := 0, timeAdopted := some t.edition, pendingTime := none, rolloverDue := false }
  | none => { c with seconds := c.seconds + 1, tick := 0, rolloverDue := false }

/-- The clock with a rollover that is due taken. -/
def Clock.settle (c : Clock) : Clock := if c.rolloverDue then c.roll else c

/-- Device time as the other blocks read it: a rollover that is due counts as taken (R211: records dated to the
rollover's tick carry the loaded seconds, R212). -/
def Clock.now (c : Clock) : DevTime := ⟨c.settle.seconds, c.settle.tick⟩

/-- Device time now. -/
def State.now (s : State) : DevTime := s.clk.now

/-- The advance of device time at a tick boundary (R211): tick-in-second rises by one; from 1999 the boundary is a
rollover, which TIME_ROLLOVER takes. -/
def Clock.advanceTick (c : Clock) : Clock :=
  let c := c.settle
  if c.tick < Config.lastTick then { c with tick := c.tick + 1 } else { c with rolloverDue := true }

/-! ## The port queue (R161, R162, R194) -/

/-- A visit, of a line or of the header, is in flight. -/
def AreaController.visiting (a : AreaController) : Bool :=
  match a.inFlight with
  | some q => (match q.kind with
    | .lineVisit _ => true
    | .headerVisit => true
    | _ => false)
  | none => false

/-- A journal sequence is in flight. -/
def AreaController.journalling (a : AreaController) : Bool :=
  match a.inFlight with
  | some q => q.kind == .journal
  | none => false

/-- Put a request at the tail of the port queue. -/
def enqueue (r : PortRequest) (s : State) : State :=
  { s with arc := { s.arc with queue := s.arc.queue ++ [r] } }

/-- The four conditions of a journal request (R194). -/
def journalWanted (s : State) : Bool :=
  s.arc.port == .running && (!s.jnl.staging.isEmpty || s.jnl.publish)
    && !(s.arc.queue.contains .journal || s.arc.journalling) && !s.jnl.holdOff

/-- The Journal Unit asks for a sequence at the first moment the four conditions hold together (R194). -/
def requestJournal (s : State) : State := if journalWanted s then enqueue .journal s else s

/-- The Area Controller asks for a visit at a tick boundary at which none is queued or in flight (R162). -/
def requestVisit (s : State) : State :=
  if s.arc.port == .running && !(s.arc.queue.contains .visit || s.arc.visiting) then enqueue .visit s else s

/-! ## Staging (R192) -/

/-- Put a record at the tail of staging, or lose it and count the loss. -/
def JournalUnit.stage (j : JournalUnit) (r : Record) : JournalUnit :=
  if j.staging.length < Config.stagingRoom then { j with staging := j.staging ++ [r] }
  else { j with gap := bump j.gap }

/-- Hand a record to the Journal Unit (R192); a record that enters staging may bring a journal request (R194). -/
def handOver (r : Record) (s : State) : State := requestJournal { s with jnl := s.jnl.stage r }

/-- A record of a line. -/
def lineRecord (n : LineNo) (d : DevTime) (b : RecordBody) : Record := ⟨some n, d, b⟩

/-- A record with no line. -/
def partRecord (d : DevTime) (b : RecordBody) : Record := ⟨none, d, b⟩

end Sys2Proof.Machine
end

