-- ==== Sys2Proof/Machine/Pool.lean ====
section
/-! DEFINITION. Key stores, the wait list and the arbiter (R120 to R132, R139, R142): the operations by which lines join
and leave the wait list and senders are granted, freed and cut. -/

namespace Sys2Proof.Machine

/-! ## Key stores -/

/-- The store after the keys are offered one after another: each is taken while there is room (R112, R121). -/
def offer (ks store : List StoredKey) : List StoredKey := store ++ ks.take (Config.storeRoom - store.length)

/-- Whether an offer drops a key (R121). -/
def offerDrops (ks store : List StoredKey) : Bool := decide (Config.storeRoom < store.length + ks.length)

/-! ## The wait list (R126 to R129) -/

/-- A waiting line's class is the one in its line record (R126). -/
def State.urgent (s : State) (n : LineNo) : Bool := (s.line n).cls == .urgent

/-- Entry a stands before entry b: URGENT before NORMAL, then in order of joining time (R126). -/
def waitsBefore (s : State) (a b : WaitEntry) : Bool :=
  (s.urgent a.line && !s.urgent b.line) || (s.urgent a.line == s.urgent b.line && decide (a.joined < b.joined))

/-- Put an entry at the place its class and joining time give it. -/
def insertWait (s : State) (e : WaitEntry) : List WaitEntry → List WaitEntry
  | [] => [e]
  | f :: rest => if waitsBefore s e f then e :: f :: rest else f :: insertWait s e rest

/-- Whether a line is in the wait list. -/
def State.waiting (s : State) (n : LineNo) : Bool := s.pool.waitList.any fun e => e.line == n

/-- Take a line out of the wait list; the others keep their order (R128). -/
def leaveWait (n : LineNo) (s : State) : State :=
  { s with pool := { s.pool with waitList := s.pool.waitList.filter fun e => e.line != n } }

/-- A join: a new joining time, later than every join before it (R127). -/
def joinWait (n : LineNo) (s : State) : State :=
  { s with pool := { s.pool with
      waitList := insertWait s ⟨n, s.pool.joins⟩ s.pool.waitList
      joins := s.pool.joins + 1 } }

/-- Move a waiting line among the entries of its present class, with its joining time kept (R129). -/
def requeue (n : LineNo) (s : State) : State :=
  match s.pool.waitList.find? fun e => e.line == n with
  | some e =>
    { s with pool := { s.pool with
        waitList := insertWait s e (s.pool.waitList.filter fun f => f.line != n) } }
  | none => s

/-! ## The arbiter (R130, R131) -/

/-- The lowest-numbered FREE sender. -/
def freeSender? (s : State) : Option SenderNo := allSenders.find? fun k => (s.sender k).state == .free

/-- A sender at its grant to line n (R131): ON with its burst not begun in LOCKED, PAUSED otherwise. A grant taken at a
tick boundary has its burst begin at that boundary. DESIGN CHOICE (assumption log 26): R131 does not give the timer, key
and accumulators of a sender so granted; they are 0 and none until its first burst or gap sets them. -/
def grantedSender (atBoundary : Bool) (n : LineNo) (clock : ClockState) : Sender :=
  { Sender.reset with
    state := if clock == .locked then .on else .paused
    line := some n
    burstDue := atBoundary && clock == .locked }

/-- Attach sender k to line n (R131). -/
def attach (atBoundary : Bool) (k : SenderNo) (n : LineNo) (s : State) : State :=
  (s.setSender k (grantedSender atBoundary n s.clk.state)).setLine n { s.line n with attached := some k }

/-- One grant: the lowest-numbered FREE sender to the head line, if there are both (R130). -/
def grantOne (atBoundary : Bool) (s : State) : State :=
  match freeSender? s, s.pool.waitList with
  | some k, e :: _ => attach atBoundary k e.line (leaveWait e.line s)
  | _, _ => s

/-- Up to `fuel` grants one after another. -/
def grantMany (atBoundary : Bool) : Nat → State → State
  | 0, s => s
  | fuel + 1, s => grantMany atBoundary fuel (grantOne atBoundary s)

/-- The arbiter grants for as long as a sender is FREE and a line waits (R130); 16 senders take at most 16 grants. -/
def arbitrate (atBoundary : Bool) (s : State) : State := grantMany atBoundary 16 s

/-- A line that may join the wait list: COLLECTING or THROUGH, keys held, no sender, not in the list (R127). -/
def mayJoin (n : LineNo) (s : State) : Bool :=
  ((s.line n).main == .collecting || (s.line n).main == .through)
    && !(s.line n).store.isEmpty && (s.line n).attached.isNone && !s.waiting n

/-- The joining test made when the handling of an event is done, with the grant that may follow (R121, R127, R130). -/
def joinTest (n : LineNo) (s : State) : State :=
  if mayJoin n s then arbitrate false (joinWait n s) else s

/-! ## Freeing a sender (R135, R139, R142) -/

/-- Sender k FREE and the attached-sender field of line n none (R135, R139). -/
def detach (k : SenderNo) (n : LineNo) (s : State) : State :=
  (s.setSender k Sender.reset).setLine n { s.line n with attached := none }

/-- The SEND_DONE record of sender k as it is freed from line n (R142). -/
def sendDone (k : SenderNo) (n : LineNo) (reason : SendReason) (d : DevTime) (s : State) : Record :=
  lineRecord n d (.sendDone k (s.sender k).keysSent reason)

/-- Sender k becomes FREE, the attached-sender field of line n becomes none, and a SEND_DONE record is handed over. -/
def freeSender (k : SenderNo) (n : LineNo) (reason : SendReason) (d : DevTime) (s : State) : State :=
  handOver (sendDone k n reason d s) (detach k n s)

/-- The release effects cut an attached sender at once, and the arbiter grants it on (R139, R130). -/
def cutSender (n : LineNo) (d : DevTime) (s : State) : State :=
  match (s.line n).attached with
  | some k => arbitrate false (freeSender k n .cut d s)
  | none => s

end Sys2Proof.Machine
end

