-- ==== Sys2Proof/Machine/Timing.lean ====
section
/-! DEFINITION. The arithmetic of dialling: the integrator (R4 to R8), the ratio check and the speed tracker (R51, R71 to
R73), the interdigit threshold (R76 to R79) and the numbering of a pulse count (R57, R58). -/

namespace Sys2Proof.Machine

/-! ## Loop conditioning -/

/-- The integrator after a sample (R4, R5, R6). -/
def integrate (p : Profile) (code : LoopCode) (i : Nat) : Nat :=
  match code with
  | .opened => i - 1
  | .closed => min (i + 1) p.depth
  | .fault => i
  | .marginal => (match p.marginalPolicy with
    | .hold => i
    | .asOpen => i - 1
    | .asClosed => min (i + 1) p.depth)

/-- A debounced transition (R7). -/
inductive Transition where
  | makeStart
  | breakStart
  | none
  deriving DecidableEq, Repr

/-- The transition test after a sample, on the integrator as the sample leaves it: no FAULT sample causes one (R6, R7). -/
def transitionOf (p : Profile) (code : LoopCode) (loop : LoopState) (i : Nat) : Transition :=
  if code = .fault then .none
  else match loop with
    | .opened => if i = p.depth then .makeStart else .none
    | .closed => if i = 0 then .breakStart else .none

/-- A line in a conditioning state after its sample: integrator, fault run, phase timer, interval timer and debounced
state (R4 to R8, R41). The phase timer is 0 after a transition; the interval timer still holds the ended length. A
FAULT sample compares its run with the persistence of the profile adopted then (R10, R14). -/
def conditionLine (p : Profile) (code : LoopCode) (l : Line) : Line × Transition :=
  let i := integrate p code l.integrator
  let t := transitionOf p code l.loop i
  ({ l with
      integrator := i
      faultRun := if code = .fault then bump l.faultRun else 0
      phaseTimer := if t = .none then bump l.phaseTimer else 0
      intervalTimer := bump l.intervalTimer
      loop := (match t with
        | .makeStart => .closed
        | .breakStart => .opened
        | .none => l.loop)
      runTestMet := code = .fault ∧ p.faultPersistence ≠ 0 ∧ p.faultPersistence ≤ bump l.faultRun }, t)

/-- A restart of the loop conditioning (R13, R41). -/
def Line.restart (l : Line) : Line :=
  { l with integrator := 0, loop := .opened, phaseTimer := 0, faultRun := 0, clearRun := 0, marginalRaised := false
           intervalTimer := 0, heldMake := 0, runTestMet := false, skipSamples := 0 }

/-- The conditioning states (R3). -/
def MainState.conditioning : MainState → Bool
  | .onHook => true
  | .seizing => true
  | .collecting => true
  | .through => true
  | .suspended => true
  | .outOfService => false
  | .blocked _ => false

/-- COLLECTING, THROUGH and SUSPENDED: the states of a call. -/
def MainState.inCall : MainState → Bool
  | .collecting => true
  | .through => true
  | .suspended => true
  | .onHook => false
  | .seizing => false
  | .outOfService => false
  | .blocked _ => false

/-- COLLECTING and THROUGH: the states in which dialling is decoded. -/
def MainState.dialling : MainState → Bool
  | .collecting => true
  | .through => true
  | .suspended => false
  | .onHook => false
  | .seizing => false
  | .outOfService => false
  | .blocked _ => false

/-! ## Completed pulses (R51, R71 to R73) -/

/-- The ratio floor(100 b / P) (R51). -/
def ratioOf (b period : Nat) : Nat := 100 * b / period

/-- The ratio lies outside the profile's limits (R51). -/
def ratioBad (p : Profile) (b period : Nat) : Bool :=
  decide (ratioOf b period < p.ratioLo ∨ p.ratioHi < ratioOf b period)

/-- The period lies outside [P_lo, P_hi] (R71). -/
def speedBad (p : Profile) (period : Nat) : Bool := decide (period < p.pLo ∨ p.pHi < period)

/-- The period as the tracker uses it (R71). -/
def clampPeriod (p : Profile) (period : Nat) : Nat := if period < p.pLo then p.pLo else min period p.pHi

/-- The correction q: Δ / 2^g rounded to the nearest whole number, halves away from zero (R72). -/
def correction (gain : Nat) (delta : Int) : Int :=
  let q : Nat := (delta.natAbs + 2 ^ (gain - 1)) / 2 ^ gain
  if delta < 0 then -(q : Int) else (q : Int)

/-- The estimate after a completed pulse of a period (R71, R72). -/
def track (p : Profile) (period estimate : Nat) : Nat :=
  ((estimate : Int) + correction p.gain (16 * (clampPeriod p period : Int) - (estimate : Int))).toNat

/-! ## The interdigit threshold (R76 to R79) -/

/-- The quotient K × Pest / 128 rounded by the profile's mode (R78). -/
def roundedQuotient (p : Profile) (estimate : Nat) : Nat :=
  match p.rounding with
  | .nearest => (p.multiplier * estimate + 64) / 128
  | .down => p.multiplier * estimate / 128
  | .up => (p.multiplier * estimate + 127) / 128

/-- T_id from an estimate (R76). -/
def thresholdOf (p : Profile) (estimate : Nat) : Nat :=
  let r := roundedQuotient p estimate
  if r < p.tidMin then p.tidMin else min r p.tidMax

/-! ## The numbering (R57, R58) -/

/-- The digit key of a pulse count; none for 11 to 15 (R57, R58). -/
def digitKey (numbering : Numbering) (n : Nat) : Option Key :=
  if 10 < n then none
  else match numbering with
    | .direct => some (Fin.ofNat 16 (n % 10))
    | .inverse => some (Fin.ofNat 16 (10 - n))
    | .offset => some (Fin.ofNat 16 (n - 1))

end Sys2Proof.Machine
end

