-- ==== Sys2Proof/Machine/Lines.lean ====
section
/-! DEFINITION. What happens to one line, over the whole state: condition sets and suspension (R84 to R92), adoption
(R34, R35, R172, R173), seizure (R21), the release effects (R23), the class raise (R105) and the completion of a number
(R111 to R114). Every operation takes the tick d its records are dated to. -/

namespace Sys2Proof.Machine

/-! ## Trains (R18, R40) -/

/-- The train fields at their idle values: the sub-state, n, b, the reopened mark and T_id. The interval timer and m are
kept, and so are the cause flags (R40). -/
def Line.dropTrain (l : Line) : Line :=
  { l with sub := .idle, pulses := 0, pulseBreak := 0, reopened := false, threshold := none }

/-! ## Condition sets (R85 to R92) -/

/-- The members of a set recorded: in the cause flags when the event has a train, in the sticky flags when no member is
trapped (R86, R87, R88). -/
def Line.applySet (toCauses : Bool) (set : CondSet) (l : Line) : Line :=
  { l with
    causes := if toCauses then l.causes ||| set else l.causes
    sticky := if l.traps set then l.sticky else l.sticky ||| set }

/-- The line on entry to SUSPENDED (R27). -/
def Line.suspend (target : ResumeTarget) (l : Line) : Line :=
  { l.dropTrain with main := .suspended, resumeTarget := some target, completionTimer := none }

/-- The resume target of a line suspended from its main state (R27). -/
def resumeTargetOf (m : MainState) : ResumeTarget := if m = .through then .through else .collecting

/-- The suspension of a line by a trapped set, with its EXCEPTION record (R27, R88, R89). -/
def suspendLine (n : LineNo) (set : CondSet) (target : ResumeTarget) (prior : MainState) (d : DevTime) (s : State) :
    State :=
  handOver (lineRecord n d (.exception ((s.line n).trapped set) prior))
    (leaveWait n (s.setLine n ((s.line n).suspend target)))

/-- An event on a line that raises a set and writes no record of its own: the set is recorded, and a trapped one
suspends the line (R85 to R88). -/
def raiseSet (n : LineNo) (toCauses : Bool) (set : CondSet) (d : DevTime) (s : State) : State :=
  let l := s.line n
  let s1 := s.setLine n (l.applySet toCauses set)
  if l.traps set then suspendLine n set (resumeTargetOf l.main) l.main d s1 else s1

/-! ## Profiles: adoption (R34, R35, R172, R173) -/

/-- The main state after the service field has acted (R34). -/
def serviceState (inService : Bool) (m : MainState) : MainState :=
  if inService then (if m = .outOfService then .onHook else m) else .outOfService

/-- The line with a profile adopted: the service field (R34), the loop conditioning (R14, with R13 when the new service
is OUT_OF_SERVICE or the line was), the nominal estimate (R68), the take-up state (R172). -/
def Line.adopt (p : Profile) (l : Line) : Line :=
  let l1 := { l with
    adopted := some p
    pendingProfile := none
    profileOutcome := .adopted
    adoptedEdition := l.profileEdition
    estimate := 16 * p.pNom
    integrator := min l.integrator p.depth
    main := serviceState p.inService l.main }
  if p.inService = false ∨ l.main = .outOfService then l1.restart else l1

/-- A pending profile is adopted on entry to ON_HOOK or BLOCKED, with a PROFILE record (R35, R173). -/
def adoptPending (n : LineNo) (d : DevTime) (s : State) : State :=
  match (s.line n).pendingProfile with
  | some p =>
    handOver (lineRecord n d (.profile ((s.line n).profileEdition.getD 0) .adopted))
      (s.setLine n ((s.line n).adopt p))
  | none => s

/-! ## Seizure (R20, R21) -/

/-- The line on entry to COLLECTING at the guard expiry: call digits empty, timer stopped, class NORMAL, sub-state IDLE
(R21). The interval timer goes on measuring the seizure make (R41). -/
def Line.seize (l : Line) : Line :=
  { l.dropTrain with main := .collecting, digits := [], completionTimer := none, cls := .normal }

/-- The guard expiry, with its SEIZE record (R21). -/
def enterCollecting (n : LineNo) (d : DevTime) (s : State) : State :=
  handOver (lineRecord n d .seize) (s.setLine n (s.line n).seize)

/-! ## The release effects (R23) -/

/-- What the release effects do to the line record and its store, on the way to a main state (R23). -/
def Line.releaseTo (m : MainState) (l : Line) : Line :=
  { l.dropTrain with
    main := m, digits := [], completionTimer := none, cls := .normal, resumeTarget := none, store := [] }

/-- The release effects: the line record, the wait list, the attached sender (R23, R128, R139). -/
def releaseEffects (n : LineNo) (m : MainState) (d : DevTime) (s : State) : State :=
  cutSender n d (leaveWait n (s.setLine n ((s.line n).releaseTo m)))

/-! ## Keys offered by events (R121) -/

/-- The keys are offered to the line's store (R121). -/
def offerTo (n : LineNo) (ks : List StoredKey) (s : State) : State :=
  s.setLine n { s.line n with store := offer ks (s.line n).store }

/-! ## The completion timer (R98) -/

/-- A restart of the completion timer: stopped when T_c is 0 (R98). -/
def Line.restartTimer (l : Line) : Line :=
  { l with completionTimer := (match l.adopted with
    | some p => if p.tComplete = 0 then none else some 0
    | none => none) }

/-! ## Evaluation and completion (R103, R105, R111 to R114) -/

/-- The class raise of an evaluation (R105, R129). -/
def raiseClass (n : LineNo) (ev : Evaluation) (s : State) : State :=
  match ev.selected with
  | some (_, e) =>
    if e.cls = .urgent ∧ (s.line n).cls = .normal then
      requeue n (s.setLine n { s.line n with cls := .urgent })
    else s
  | none => s

/-- The end key a completion offers: the profile's, when the selected entry's flag says so (R112, R113). -/
def endKeys (p : Profile) (ev : Evaluation) : List StoredKey :=
  match ev.selected with
  | some (_, e) => if e.endKey then [⟨p.endKey, .endKey⟩] else []
  | none => []

/-- The keys a completion offers to the store (R112, R113). -/
def completionKeys (p : Profile) (ev : Evaluation) (digits : List Key) : List StoredKey :=
  match p.sendingMode with
  | .enBloc => digits.map (fun k => ⟨k, .dialled⟩) ++ endKeys p ev
  | .overlap => endKeys p ev

/-- The condition set of a completion (R91, R114). -/
def completionSet (o : NumberOutcome) (dropped : Bool) : CondSet :=
  Cond.when (o == .unmatched) Cond.unmatched ||| Cond.when (o == .full) Cond.callFull
    ||| Cond.when dropped Cond.storeFull

/-- The line on entry to THROUGH at a completion (R25). -/
def Line.enterThrough (l : Line) : Line := { l with main := .through, digits := [], completionTimer := none }

/-- A completion, after the class raise of its evaluation: keys offered, NUMBER record, THROUGH, the condition set, and
the joining test when all that is done (R111). -/
def completeNumber (n : LineNo) (p : Profile) (o : NumberOutcome) (ev : Evaluation) (d : DevTime) (s : State) : State :=
  let l := s.line n
  let ks := completionKeys p ev l.digits
  let set := completionSet o (offerDrops ks l.store)
  let s1 := handOver
    (lineRecord n d (.number o l.digits.length (ev.selected.map (·.1)) l.cls set)) (offerTo n ks s)
  let s2 := s1.setLine n (s1.line n).enterThrough
  let s3 := s2.setLine n ((s2.line n).applySet false set)
  joinTest n (if l.traps set then suspendLine n set .through .collecting d s3 else s3)

/-- The evaluation after a digit (R103, R105 to R108). -/
def evaluateAfterDigit (n : LineNo) (p : Profile) (d : DevTime) (s : State) : State :=
  let ev := evaluate s.plan.table (s.line n).digits
  let s1 := raiseClass n ev s
  match outcomeAfterDigit p.unmatchedAction ev (s.line n).digits.length with
  | some o => completeNumber n p o ev d s1
  | none => s1

end Sys2Proof.Machine
end

