-- ==== Sys2Proof/Machine/Scan.lean ====
section
/-! DEFINITION. SCAN_FRAME_COMPLETE: each line takes its loop code (R1, R3), and the transition event it may cause is
taken with its condition set (R20, R21, R42 to R54, R62 to R64). The expiries of the tick are steps of their own. -/

namespace Sys2Proof.Machine

/-! ## Breaks and makes as they begin -/

/-- A BREAK_START in SEIZING: the seizure is abandoned without a record, and a pending profile is adopted (R21, R35). -/
def abandonSeizure (n : LineNo) (d : DevTime) (s : State) : State :=
  adoptPending n d (s.setLine n { s.line n with main := .onHook, sub := .idle, intervalTimer := 0 })

/-- A BREAK_START with no train in progress: a candidate break (R42). -/
def candidateBreak (n : LineNo) (s : State) : State :=
  let l := s.line n
  s.setLine n { l with heldMake := l.intervalTimer, intervalTimer := 0 }

/-- A BREAK_START that ends a make of at least Mmin inside a train: a candidate pulse break (R43). -/
def candidatePulseBreak (n : LineNo) (marg : CondSet) (d : DevTime) (s : State) : State :=
  let l := s.line n
  raiseSet n true marg d
    (s.setLine n { l with heldMake := l.intervalTimer, intervalTimer := 0, sub := .brk })

/-- A make glitch: the counted break before it is reopened (R44). DESIGN CHOICE (assumption log 20): after a reopened break
has ended by R53, b is the length B of that end, not the length of the break's first end, as R44's words on a second make
glitch could be read. -/
def makeGlitch (n : LineNo) (marg : CondSet) (d : DevTime) (s : State) : State :=
  let l := s.line n
  raiseSet n true (Cond.glitch ||| marg) d
    (s.setLine n { l with
      sub := .brk
      intervalTimer := min (l.pulseBreak + l.intervalTimer) Config.countLimit
      reopened := true
      threshold := none })

/-- A BREAK_START, by main state and sub-state. No BREAK_START arises in ON_HOOK (R20), where the interval timer would
restart (R41), nor with sub-state BREAK. DESIGN CHOICE (assumption log 21): under a T_id below Mmin a make no longer than
T_id, ended by a break, is a make glitch by R44 and R81, although R82 says that none can occur there. -/
def breakStart (n : LineNo) (p : Profile) (marg : CondSet) (d : DevTime) (s : State) : State :=
  let l := s.line n
  if l.main = .seizing then abandonSeizure n d s
  else if l.main.inCall then
    match l.sub with
    | .idle => candidateBreak n s
    | .brk => candidateBreak n s
    | .make => if p.mMin ≤ l.intervalTimer then candidatePulseBreak n marg d s else makeGlitch n marg d s
  else s.setLine n { l with intervalTimer := 0 }

/-! ## Breaks as they end -/

/-- A MAKE_START in ON_HOOK: seizure, and with no guard the passage to COLLECTING in the same event (R20, R21). -/
def seizeLine (n : LineNo) (p : Profile) (d : DevTime) (s : State) : State :=
  let s1 := s.setLine n { s.line n with main := .seizing, intervalTimer := 0 }
  if p.guard = 0 then enterCollecting n d s1 else s1

/-- A break glitch: the break is absorbed into the make before it (R45). -/
def breakGlitch (n : LineNo) (marg : CondSet) (d : DevTime) (s : State) : State :=
  let l := s.line n
  let l1 := { l with intervalTimer := min (l.heldMake + l.intervalTimer) Config.countLimit }
  match l.sub with
  | .idle => s.setLine n l1
  | .make => s.setLine n l1
  | .brk => raiseSet n true (Cond.glitch ||| marg) d (s.setLine n { l1 with sub := .make })

/-- A train starts at the end of a break of length b (R49). -/
def startTrain (n : LineNo) (p : Profile) (b : Nat) (s : State) : State :=
  let l := s.line n
  s.setLine n { l with
    pulses := 1
    pulseBreak := b
    causes := 0
    marginalRaised := false
    reopened := false
    sub := .make
    threshold := some (thresholdOf p l.estimate)
    intervalTimer := 0 }

/-- The condition set of a pulse break end: RATIO and SPEED of the pulse it completes, and MARGINAL (R51, R71, R64). -/
def pulseSet (p : Profile) (b m : Nat) (marg : CondSet) : CondSet :=
  Cond.when (ratioBad p b (b + m)) Cond.ratio ||| Cond.when (speedBad p (b + m)) Cond.speed ||| marg

/-- A pulse of the train in progress, ended at length b: the previous pulse completes and is tracked, and unless its set
is trapped the count rises and T_id is computed for the new make (R50, R51, R64, R90). -/
def pulseBreakEnd (n : LineNo) (p : Profile) (b : Nat) (marg : CondSet) (d : DevTime) (s : State) : State :=
  let l := s.line n
  let est := track p (l.pulseBreak + l.heldMake) l.estimate
  raiseSet n true (pulseSet p l.pulseBreak l.heldMake marg) d
    (s.setLine n { l with
      estimate := est
      pulses := min (l.pulses + 1) 15
      pulseBreak := b
      sub := .make
      threshold := some (thresholdOf p est)
      intervalTimer := 0 })

/-- A reopened break ends at a length b no greater than Bmax: it stays the pulse it was (R53). -/
def reopenedBreakEnd (n : LineNo) (p : Profile) (b : Nat) (marg : CondSet) (d : DevTime) (s : State) : State :=
  let l := s.line n
  raiseSet n true marg d
    (s.setLine n { l with
      pulseBreak := b
      reopened := false
      sub := .make
      threshold := some (thresholdOf p l.estimate)
      intervalTimer := 0 })

/-- A long break inside a train: LONG_BREAK, and the train is discarded with no digit (R52). -/
def longBreakInTrain (n : LineNo) (marg : CondSet) (d : DevTime) (s : State) : State :=
  let l := s.line n
  raiseSet n true (Cond.longBreak ||| marg) d (s.setLine n { l.dropTrain with intervalTimer := 0 })

/-- A long break with no train: LONG_BREAK, not among the cause flags (R48, R86). -/
def longBreakAlone (n : LineNo) (d : DevTime) (s : State) : State :=
  raiseSet n false Cond.longBreak d (s.setLine n { s.line n with intervalTimer := 0 })

/-! ## Flash (R26, R62, R63) -/

/-- The keys a flash offers: the mapped key with origin FLASH (R63). -/
def flashKeys (p : Profile) : List StoredKey :=
  match p.flashMapping with
  | some k => [⟨k, .flash⟩]
  | none => []

/-- The disposition of an untrapped flash (R63). -/
def flashDisposition (p : Profile) (full : Bool) : Disposition :=
  match p.flashMapping with
  | none => .none
  | some _ => if full then .dropped else .stored

/-- The main-state effect of an untrapped flash: a restart in THROUGH with flash-restart on (R26). -/
def Line.flashRestart (p : Profile) (l : Line) : Line :=
  if l.main = .through ∧ p.flashRestart = true then
    { l.dropTrain with main := .collecting, digits := [], completionTimer := none }
  else l

/-- A FLASH event in COLLECTING or THROUGH: its condition set, then the mapping and the main-state effect unless the set
is trapped, the FLASH record, and the joining test when the event is done (R62, R63, R88, R121). -/
def takeFlash (n : LineNo) (p : Profile) (d : DevTime) (s : State) : State :=
  let l := s.line n
  let full := offerDrops (flashKeys p) l.store
  let set := Cond.when full Cond.storeFull
  let s1 := s.setLine n ({ l with intervalTimer := 0 }.applySet false set)
  if l.traps set then
    suspendLine n set (resumeTargetOf l.main) l.main d (handOver (lineRecord n d (.flash .discarded)) s1)
  else
    let s2 := offerTo n (flashKeys p) (s1.setLine n ((s1.line n).flashRestart p))
    joinTest n (handOver (lineRecord n d (.flash (flashDisposition p full))) s2)

/-- A flash-length break in SUSPENDED writes its record and does nothing else (R28, R62). -/
def suspendedFlash (n : LineNo) (d : DevTime) (s : State) : State :=
  handOver (lineRecord n d (.flash .ignored)) (s.setLine n { s.line n with intervalTimer := 0 })

/-- A break length that flash recognition takes: above Bmax, no greater than Fmax, with flash enabled (R48, R62). -/
def isFlashLength (p : Profile) (b : Nat) : Bool := decide (p.fMax ≠ 0 ∧ p.bMax < b ∧ b ≤ p.fMax)

/-- A break that ends at Bmin or longer with sub-state IDLE in COLLECTING or THROUGH (R48). -/
def endBreakIdle (n : LineNo) (p : Profile) (b : Nat) (d : DevTime) (s : State) : State :=
  if b ≤ p.bMax then startTrain n p b s
  else if isFlashLength p b then takeFlash n p d s
  else longBreakAlone n d s

/-- A break that ends, not a glitch, with sub-state BREAK (R50, R52, R53). -/
def endBreakInTrain (n : LineNo) (p : Profile) (b : Nat) (marg : CondSet) (d : DevTime) (s : State) : State :=
  if p.bMax < b then longBreakInTrain n marg d s
  else if (s.line n).reopened then reopenedBreakEnd n p b marg d s
  else pulseBreakEnd n p b marg d s

/-- A break that ends, not a glitch, in SUSPENDED (R28). -/
def endBreakSuspended (n : LineNo) (p : Profile) (b : Nat) (d : DevTime) (s : State) : State :=
  if isFlashLength p b then suspendedFlash n d s
  else s.setLine n { s.line n with intervalTimer := 0 }

/-- The break that ends is a break glitch: shorter than Bmin, and not a reopened break (R45). -/
def isBreakGlitch (p : Profile) (l : Line) : Bool := decide (l.intervalTimer < p.bMin) && !l.reopened

/-- A MAKE_START, by main state and sub-state. No MAKE_START arises in SEIZING, nor with sub-state MAKE. -/
def makeStart (n : LineNo) (p : Profile) (marg : CondSet) (d : DevTime) (s : State) : State :=
  let l := s.line n
  if l.main = .onHook then seizeLine n p d s
  else if l.main.inCall then
    if isBreakGlitch p l then breakGlitch n marg d s
    else if l.main = .suspended then endBreakSuspended n p l.intervalTimer d s
    else match l.sub with
      | .idle => endBreakIdle n p l.intervalTimer d s
      | .make => endBreakIdle n p l.intervalTimer d s
      | .brk => endBreakInTrain n p l.intervalTimer marg d s
  else s.setLine n { l with intervalTimer := 0 }

/-! ## The sample of one line -/

/-- A MARGINAL sample raises MARGINAL: COLLECTING or THROUGH with a train in progress before the sample, and not yet
raised for that train (R9). -/
def raisesMarginal (code : LoopCode) (l : Line) : Bool :=
  decide (code = .marginal ∧ l.sub ≠ .idle) && l.main.dialling && !l.marginalRaised

/-- The sample of a line in a conditioning state, with the transition event and its set (R4 to R9, R64). -/
def conditioningSample (n : LineNo) (p : Profile) (code : LoopCode) (d : DevTime) (s : State) : State :=
  let l := s.line n
  let raised := raisesMarginal code l
  let marg := Cond.when raised Cond.marginal
  let (l1, t) := conditionLine p code l
  let s1 := s.setLine n { l1 with marginalRaised := l.marginalRaised || raised }
  match t with
  | .makeStart => makeStart n p marg d s1
  | .breakStart => breakStart n p marg d s1
  | .none => raiseSet n true marg d s1

/-- The persistence a clear run is compared with, 0 taken as 1 (R12). -/
def Line.clearPersistence (l : Line) : Nat :=
  match l.adopted with
  | some p => max p.faultPersistence 1
  | none => 1

/-- The sample of a line in BLOCKED(FAULT): the clear run, and its comparison with the persistence of the profile adopted
then (R11, R12, R14). -/
def Line.clearSample (code : LoopCode) (l : Line) : Line :=
  if code = .fault then { l with clearRun := 0, runTestMet := false }
  else { l with clearRun := bump l.clearRun, runTestMet := l.clearPersistence ≤ bump l.clearRun }

/-- A sample of a tick up to that of the line's UNBLOCK: the line does not take it (R31; assumption log 19). -/
def Line.skipSample (l : Line) : Line := { l with skipSamples := l.skipSamples - 1 }

/-- What a line does with its sample, by its main state (R3). -/
def sampleLine (code : LoopCode) (n : LineNo) (d : DevTime) (s : State) : State :=
  let l := s.line n
  match l.main with
  | .outOfService => s
  | .blocked .admin => s
  | .blocked .fault => s.setLine n (l.clearSample code)
  | .onHook | .seizing | .collecting | .through | .suspended =>
    match l.adopted with
    | some p => if l.skipSamples = 0 then conditioningSample n p code d s else s.setLine n l.skipSample
    | none => s

/-- Every line takes its sample, in line order (R1; assumption log 5). -/
def sampleLines (frame : BitVec 192) (d : DevTime) : List LineNo → State → State
  | [], s => s
  | n :: rest, s => sampleLines frame d rest (sampleLine (frameCode frame n) n d s)

/-! ## The frame -/

/-- The scan strobe at a tick boundary; a tick that arrives while a frame shifts is owed its frame (R1, R2). -/
def ScanPort.strobe (now : DevTime) (p : ScanPort) : ScanPort :=
  if p.shifting then { p with owed := p.owed + 1, tickSampled := false }
  else { p with shifting := true, strobedAt := now, tickSampled := false }

/-- The frame is complete: the port returns to idle, or strobes a frame it owes (R1, R2). -/
def ScanPort.finish (now : DevTime) (p : ScanPort) : ScanPort :=
  if p.owed = 0 then { p with shifting := false, sampleAt := p.strobedAt, tickSampled := true }
  else { p with owed := p.owed - 1, sampleAt := p.strobedAt, strobedAt := now }

/-- SCAN_FRAME_COMPLETE (R1). -/
def execScanFrameComplete (frame : BitVec 192) (s : State) : Host.Outcome State Fault Refusal :=
  whenDue (s.working && s.scan.shifting) s
    (sampleLines frame s.scan.strobedAt allLines { s with scan := s.scan.finish s.now })

end Sys2Proof.Machine
end

