-- ==== Sys2Proof/Machine/Tone.lean ====
section
/-! DEFINITION. Tone synthesis (R151 to R155), path states (R147 to R149) and what a switch-side frame carries (R145,
R150, R156). -/

namespace Sys2Proof.Machine

/-! ## The sine table (R153) -/

/-- Entries 0 to 64 of the sine table: round(32767 × sin(2πi / 256)) (R153). -/
def sineQuarter : List Nat :=
  [ 0, 804, 1608, 2410, 3212, 4011, 4808, 5602, 6393, 7179, 7962, 8739, 9512 ] ++
  [ 10278, 11039, 11793, 12539, 13279, 14010, 14732, 15446, 16151, 16846, 17530, 18204, 18868 ] ++
  [ 19519, 20159, 20787, 21403, 22005, 22594, 23170, 23731, 24279, 24811, 25329, 25832, 26319 ] ++
  [ 26790, 27245, 27683, 28105, 28510, 28898, 29268, 29621, 29956, 30273, 30571, 30852, 31113 ] ++
  [ 31356, 31580, 31785, 31971, 32137, 32285, 32412, 32521, 32609, 32678, 32728, 32757, 32767 ]

/-- Entry i of the 256-entry sine table, by its symmetries from the first quarter (R153). -/
def sineEntry (i : Nat) : Int :=
  if i ≤ 64 then (sineQuarter.getD i 0 : Int)
  else if i ≤ 128 then (sineQuarter.getD (128 - i) 0 : Int)
  else if i ≤ 192 then -(sineQuarter.getD (i - 128) 0 : Int)
  else -(sineQuarter.getD (256 - i) 0 : Int)

/-- The table entry of a phase: its high 8 bits are the index (R153). -/
def phaseEntry (phase : BitVec 16) : Int := sineEntry (phase.toNat / 256)

/-! ## Keys and increments (R151) -/

/-- The keypad row of a key, 0 to 3: 1-2-3-A, 4-5-6-B, 7-8-9-C, *-0-#-D. -/
def keyRow (k : Key) : Nat :=
  [3, 0, 0, 0, 1, 1, 1, 2, 2, 2, 3, 3, 0, 1, 2, 3].getD k.val 0

/-- The keypad column of a key, 0 to 3: 1-4-7-*, 2-5-8-0, 3-6-9-#, A-B-C-D. -/
def keyColumn (k : Key) : Nat :=
  [1, 0, 1, 2, 0, 1, 2, 0, 1, 2, 0, 2, 3, 3, 3, 3].getD k.val 0

/-- The low-group increment of a key (R151). -/
def lowIncrement (k : Key) : BitVec 16 := BitVec.ofNat 16 ([5710, 6308, 6980, 7709].getD (keyRow k) 0)

/-- The high-group increment of a key (R151). -/
def highIncrement (k : Key) : BitVec 16 := BitVec.ofNat 16 ([9904, 10945, 12100, 13378].getD (keyColumn k) 0)

/-! ## A sample of a burst (R154) -/

/-- A component: floor(A × e / 32768); division of Int by a positive number rounds toward minus infinity. -/
def component (amplitude : Nat) (entry : Int) : Int := (amplitude : Int) * entry / 32768

/-- Saturation to −32767 .. +32767. -/
def saturate (v : Int) : Int := max (-32767) (min 32767 v)

/-- The tone value of two phases under two amplitudes. -/
def toneValue (aLow aHigh : Nat) (low high : BitVec 16) : Int :=
  saturate (component aLow (phaseEntry low) + component aHigh (phaseEntry high))

/-- The synthesised sample of a sender's frame, with its line's profile (R154, R155). -/
def toneSample (p : Profile) (x : Sender) : Sample := BitVec.ofInt 16 (toneValue p.aLow p.aHigh x.accLow x.accHigh)

/-- The accumulators after a frame of the burst (R152). -/
def Sender.advance (x : Sender) : Sender :=
  match x.key with
  | some k => { x with accLow := x.accLow + lowIncrement k, accHigh := x.accHigh + highIncrement k }
  | none => x

/-! ## Path states (R147, R149) -/

/-- The line is collecting en bloc: COLLECTING, sending mode EN_BLOC, call digits held (R147). -/
def collectingEnBloc (p : Profile) (l : Line) : Bool :=
  l.main == .collecting && p.sendingMode == .enBloc && !l.digits.isEmpty

/-- The conditions of MUTE under mute enable ON (R147). -/
def wantsMute (p : Profile) (l : Line) : Bool :=
  (l.main.dialling && l.sub != .idle) || collectingEnBloc p l || l.main == .suspended

/-- The path state of a line's channel, derived from the line record and the attachment (R147, R149). -/
def Line.path (l : Line) : PathState :=
  if l.attached.isSome then .tone
  else match l.adopted with
    | some p => if p.muteEnable && wantsMute p l then .mute else .pass
    | none => .pass

/-! ## Composing a frame (R150) -/

/-- The sender is in a burst that has not reached T_on of its line's profile: its frames carry tone (R134, R150). -/
def sounding (p : Profile) (x : Sender) : Bool := x.state == .on && x.begun && decide (x.timer < p.tOn)

/-- What the attached sender gives its channel under TONE (R150). -/
def toneOutput (s : State) (l : Line) : Sample :=
  match l.attached, l.adopted with
  | some k, some p => if sounding p (s.sender k) then toneSample p (s.sender k) else 0
  | _, _ => 0

/-- The delayed sample of channel n: the oldest of its delay line (R146). -/
def delayedSample (s : State) (n : LineNo) : Sample := s.hwy.delay[n].headD 0

/-- What slot n carries in a frame whose delayed sample is given (R150). -/
def slotSample (delayed : Sample) (s : State) (n : LineNo) : Sample :=
  match (s.line n).path with
  | .pass => delayed
  | .mute => 0
  | .tone => toneOutput s (s.line n)

/-- The output sample of channel n in the frame being composed (R150). -/
def outputSample (s : State) (n : LineNo) : Sample := slotSample (delayedSample s n) s n

/-- A sender after the frame: a sounding burst's accumulators advance (R152). -/
def advanceSounding (s : State) (x : Sender) : Sender :=
  match x.line with
  | some n => (match (s.line n).adopted with
    | some p => if sounding p x then x.advance else x
    | none => x)
  | none => x

/-- The switch-side frame is composed whole and driven; then the accumulators advance (R145, R150, R152). -/
def composeFrame (s : State) : State :=
  { s.mapSenders (advanceSounding s) with
    hwy := { s.hwy with xtxd := ⟨⟨allLines.map fun n => some (outputSample s n)⟩, by simp⟩ } }

/-- XTXD is not driven in any slot (R145, R156). -/
def releaseXtxd (s : State) : State := { s with hwy := { s.hwy with xtxd := Vector.replicate 96 none } }

/-- XTXD is driven in the current frame; a frame is driven whole or not at all (R145, R156). -/
def Highway.driven (h : Highway) : Bool := h.xtxd[0].isSome

/-- The boundary frame, frame 0 of a tick, under a locked clock, composed and driven. A frame 0 that loses the reference is
never composed (R156). -/
def boundaryFrame (s : State) : Bool := s.working && s.clk.state == .locked && s.clk.frame == 0 && s.hwy.driven

/-- A step of the Sender Pool taken at a tick boundary takes effect from frame 0 of that tick (R148, R150): the slots of the
channels whose sender or attachment the step moved are composed again, from the frame's own delayed samples. Every other
slot keeps the sample it was composed with (R148). -/
def recompose (moved : LineNo → Bool) (s : State) : State :=
  if boundaryFrame s then
    { s with hwy := { s.hwy with xtxd := ⟨⟨allLines.map fun n =>
        if moved n then some (slotSample s.hwy.delayed[n] s n) else s.hwy.xtxd[n]⟩, by simp⟩ } }
  else s

/-! ## The line side (R144, R146) -/

/-- The highway at the start of a line-side frame: no slot of it taken, and its delayed samples those that its slots will
remove (R144, R146). -/
def Highway.openFrame (h : Highway) : Highway :=
  { h with slot := 0, delayed := h.delay.map fun line => line.headD 0 }

/-- One delay line at a line-side frame: the oldest sample leaves, the received one enters (R146). -/
def shiftDelay (v : Sample) (delay : List Sample) : List Sample := delay.drop 1 ++ [v]

/-- LINE_SLOT_RECEIVED: slots arrive in channel order, each once a frame (R144, R146). -/
def execLineSlotReceived (channel : LineNo) (sample : Sample) (s : State) : Host.Outcome State Fault Refusal :=
  whenDue (s.working && s.hwy.slot == channel.val) s
    { s with hwy := { s.hwy with
        delay := s.hwy.delay.set channel (shiftDelay sample s.hwy.delay[channel])
        slot := channel.val + 1 } }

end Sys2Proof.Machine
end

