-- ==== Sys2Proof/Machine/Senders.lean ====
section
/-! DEFINITION. The sender's own steps, all taken at tick boundaries: BURST_START, BURST_EXPIRY, GAP_EXPIRY (R134, R135),
what a boundary does to a sender's timer, and the pauses and re-gaps of clock changes (R140, R141). -/

namespace Sys2Proof.Machine

/-- The profile that governs a sender: its line's adopted profile (R134, R136). -/
def senderProfile (s : State) (x : Sender) : Option Profile :=
  match x.line with
  | some n => (s.line n).adopted
  | none => none

/-! ## What a tick boundary does to a sender -/

/-- A sender at a tick boundary: the state timer of a burst or gap rises by one, a burst that waits for its first boundary
falls due (R133, R134). -/
def Sender.atBoundary (x : Sender) : Sender :=
  { x with
    timer := if (x.state == .on && x.begun) || x.state == .gap then min (x.timer + 1) Config.maxTime else x.timer
    burstDue := x.burstDue || (x.state == .on && !x.begun) }

/-! ## Bursts -/

/-- A sender at the start of a burst of key k (R134, R152). -/
def Sender.startBurst (k : Option Key) (x : Sender) : Sender :=
  { x with state := .on, begun := true, burstDue := false, key := k, timer := 0, accLow := 0, accHigh := 0 }

/-- A burst begins on sender k for line n: the head key is read, and in frame 0 of the tick the slot carries the burst's
first sample, that of phase 0 in both groups, after which the accumulators advance (R134, R148, R152). -/
def beginBurst (k : SenderNo) (n : LineNo) (s : State) : State :=
  let x := (s.sender k).startBurst ((s.line n).store.head?.map (·.key))
  if boundaryFrame s then
    let s1 := s.setSender k x
    { s.setSender k x.advance with
      hwy := { s.hwy with xtxd := s.hwy.xtxd.set n (some (toneOutput s1 (s1.line n))) } }
  else s.setSender k x

/-- BURST_START: the tick boundary after a grant (R134). -/
def execBurstStart (k : SenderNo) (s : State) : Host.Outcome State Fault Refusal :=
  match (s.sender k).line with
  | some n =>
    whenDue (s.working && (s.sender k).state == .on && !(s.sender k).begun && (s.sender k).burstDue) s
      (beginBurst k n s)
  | none => .next s

/-- The burst timer has reached T_on (R134). -/
def burstExpired (p : Profile) (x : Sender) : Bool := x.state == .on && x.begun && decide (p.tOn ≤ x.timer)

/-- A sender on entry to GAP (R134, R141). -/
def Sender.enterGap (x : Sender) : Sender := { x with state := .gap, timer := 0, begun := false, burstDue := false }

/-- The burst expiry of sender k, if it is due: the sender enters GAP (R134); its slot carries 0 from frame 0 of the tick
(R150). -/
def takeBurstExpiry (k : SenderNo) (s : State) : State :=
  match senderProfile s (s.sender k) with
  | some p =>
    if s.working && burstExpired p (s.sender k) then
      recompose (fun m => (s.sender k).line == some m) (s.setSender k (s.sender k).enterGap)
    else s
  | none => s

/-- BURST_EXPIRY (R134). -/
def execBurstExpiry (k : SenderNo) (s : State) : Host.Outcome State Fault Refusal := .next (takeBurstExpiry k s)

/-! ## Gaps (R135) -/

/-- The gap timer has reached T_off (R135). -/
def gapExpired (p : Profile) (x : Sender) : Bool := x.state == .gap && decide (p.tOff ≤ x.timer)

/-- The reason of a sender freed at a gap expiry (R135, R142). -/
def emptyReason (flushMark : Bool) : SendReason := if flushMark then .flushed else .empty

/-- The lines whose attached-sender field differs between two states: a channel's attachment moves its path state and its
sender (R147, R148). -/
def attachmentMoved (s t : State) (m : LineNo) : Bool := (t.line m).attached != (s.line m).attached

/-- The gap expiry of sender k on line n (R135). DESIGN CHOICE (assumption log 24): the journal request that its SEND_DONE
record may bring stands behind the visit that the same tick boundary asks for, an order R161 leaves open. -/
def expireGap (k : SenderNo) (n : LineNo) (s : State) : State :=
  let x := s.sender k
  if x.resendMark then beginBurst k n (s.setSender k { x with resendMark := false })
  else
    let s1 := (s.setSender k { x with keysSent := bump x.keysSent }).setLine n
      { s.line n with store := (s.line n).store.drop 1 }
    if (s1.line n).store.isEmpty then
      let s2 := arbitrate true (freeSender k n (emptyReason x.flushMark) s.now s1)
      recompose (attachmentMoved s s2) s2
    else beginBurst k n (s1.setSender k { s1.sender k with flushMark := false })

/-- The gap expiry of sender k, if it is due (R135). -/
def takeGapExpiry (k : SenderNo) (s : State) : State :=
  match (s.sender k).line, senderProfile s (s.sender k) with
  | some n, some p => if s.working && gapExpired p (s.sender k) then expireGap k n s else s
  | _, _ => s

/-- GAP_EXPIRY (R135). Its journal request stands behind the boundary's visit: DESIGN CHOICE (assumption log 24; R161 leaves
the order open). -/
def execGapExpiry (k : SenderNo) (s : State) : Host.Outcome State Fault Refusal := .next (takeGapExpiry k s)

/-- The expiries of sender k on a tick boundary: that of its burst, then that of its gap, which with T_off 0 falls on the
same boundary (R134, R135). -/
def takeExpiries (k : SenderNo) (s : State) : State := takeGapExpiry k (takeBurstExpiry k s)

/-- The expiries of senders on one tick boundary, sender by sender in the order given. -/
def takeAllExpiries (ks : List SenderNo) (s : State) : State := ks.foldl (fun t k => takeExpiries k t) s

/-! ## Clock changes (R140, R141) -/

/-- A sender when the clock leaves LOCKED: ON and GAP become PAUSED, the burst or gap abandoned (R140). DESIGN CHOICE
(assumption log 26): R140 says only that the timer is not kept; the model sets it to 0, and keeps the key being sent and the
accumulators, none of which is read in PAUSED. -/
def pauseSender (x : Sender) : Sender :=
  if x.state = .on ∨ x.state = .gap then { x with state := .paused, timer := 0, begun := false, burstDue := false } else x

/-- A sender when the clock enters LOCKED: PAUSED becomes GAP with its timer 0 and the resend mark set (R141). -/
def regapSender (x : Sender) : Sender :=
  if x.state = .paused then { x.enterGap with resendMark := true } else x

end Sys2Proof.Machine
end

