-- ==== Sys2Proof/Machine/Clocks.lean ====
section
/-! DEFINITION. The Clock and Time Unit: frames and ticks (R204), the clock state (R205 to R209), the learned divider
(R210), device time (R211, R212), and everything a tick boundary holds. -/

namespace Sys2Proof.Machine

/-! ## Frames outside LOCKED (R204, R207) -/

/-- The length the learned divider gives the current frame (R204). -/
def Clock.frameLength (c : Clock) : Nat :=
  if c.frame = 3 then c.divider - 3 * (c.divider / 4) else c.divider / 4

/-- Frame 3 is held open for the lock (R207). -/
def Clock.heldOpen (c : Clock) : Bool := c.state == .qualifying && c.lockDue && c.frame == 3

/-- The cycle of the current frame by which it ends if no edge ends it: the fill in LOCKED, the handover limit for a held
frame 3, and otherwise its length, or the cycle it has reached when it was held open beyond that (R204, R207, R208). -/
def Clock.frameLimit (c : Clock) : Nat :=
  if c.state = .locked then Config.maxSpacing
  else if c.heldOpen then Config.handoverLimit
  else max c.frameLength c.frameAge

/-- Internal cycles pass up to a cycle of the current frame. -/
def Clock.passTo (cycle : Nat) (c : Clock) : Clock :=
  { c with spacing := c.spacing + (cycle - c.frameAge), frameAge := cycle }

/-- An XFS edge is well spaced (R206). -/
def wellSpaced (spacing : Nat) : Bool := decide (Config.minSpacing ≤ spacing ∧ spacing ≤ Config.maxSpacing)

/-! ## Tick boundaries (R204) -/

/-- A divider window at a tick boundary: at the 256th it is full and a new one opens (R210). -/
def Clock.windowBoundary (c : Clock) : Clock :=
  match c.window with
  | some w =>
    if Config.windowTicks ≤ w.ticks + 1 then { c with window := some ⟨0, 0⟩, windowDone := some w.cycles }
    else { c with window := some ⟨w.ticks + 1, w.cycles⟩ }
  | none => c

/-- The completion timer at a tick boundary: a running one has counted one more tick (R98). -/
def Line.timerTick (l : Line) : Line := { l with completionTimer := l.completionTimer.map (· + 1) }

/-- The port waits on the bus: a sequence is in flight with a transfer, or the grant before its first, outstanding
(R218). -/
def AreaController.onBus (a : AreaController) : Bool :=
  match a.inFlight with
  | some q => q.stage == .reading || q.stage == .planReading || q.stage == .writing
  | none => false

/-- Everything a tick boundary holds: device time, the divider window, the completion timers, the senders' timers, the
scan strobe, the bus wait, the hold-off, and the visit request (R1, R98, R134, R162, R194, R204, R210, R211, R218). DESIGN
CHOICE (assumption log 24): this visit request is made before every journal request of the same boundary, that of the CLOCK
record of a lock or a loss, of the SEND_DONE record of a gap expiry and of HOLD_OFF_CLEAR; R161 leaves the order open. -/
def tickBoundary (s : State) : State :=
  let clk := s.clk.advanceTick.windowBoundary
  requestVisit
    { (s.mapLines Line.timerTick).mapSenders Sender.atBoundary with
      clk := clk
      scan := s.scan.strobe clk.now
      arc := { s.arc with busWait := if s.arc.onBus then s.arc.busWait + 1 else s.arc.busWait }
      jnl := { s.jnl with holdOffDue := s.jnl.holdOff } }

/-- The next line-side frame starts: no slot of it is taken yet, nothing is driven until it is composed; frame 0 is a tick
boundary (R144, R204). -/
def startFrame (s : State) : State :=
  let frame := (s.clk.frame + 1) % 4
  let s1 := releaseXtxd
    { s with clk := { s.clk with frame := frame, frameAge := 0 }, hwy := s.hwy.openFrame }
  if frame = 0 then tickBoundary s1 else s1

/-! ## Changes of clock state (R209) -/

/-- A change of clock state: the state, the CLOCK record, the CLOCK attention bit; then, entering LOCKED, the paused
senders enter GAP, and leaving it, the senders pause (R140, R141, R209). -/
def changeClock (st : ClockState) (s : State) : State :=
  let s1 := setAttention Attention.clock
    (handOver (partRecord s.now (.clock st)) { s with clk := { s.clk with state := st } })
  if st = .locked then s1.mapSenders regapSender
  else if s.clk.state = .locked then s1.mapSenders pauseSender
  else s1

/-- Where a lost reference leaves the clock (R206). -/
def lostState (c : Clock) : ClockState := if c.lockedSince then .holdover else .free

/-! ## FRAME_START (R204) -/

/-- FRAME_START: outside LOCKED, the internal oscillator ends the frame and starts the next; a frame 3 held open for the
lock is not ended by it (R204, R207). -/
def execFrameStart (s : State) : Host.Outcome State Fault Refusal :=
  whenDue (s.working && s.clk.state != .locked && !s.clk.heldOpen) s
    (startFrame { s with clk := s.clk.passTo s.clk.frameLimit })

/-! ## TIME_ROLLOVER (R211, R212) -/

/-- TIME_ROLLOVER: the rollover of the boundary just produced. -/
def execTimeRollover (s : State) : Host.Outcome State Fault Refusal :=
  whenDue (s.working && s.clk.rolloverDue) s { s with clk := s.clk.roll }

/-! ## XFS_EDGE (R206 to R208) -/

/-- The entry to LOCKED at the boundary the handover edge starts (R207): the boundary, the marks, an open divider window,
the change of state, and frame 0 composed. DESIGN CHOICE (assumption log 24): the visit that the boundary asks for is queued
before the journal request of the CLOCK record, an order R161 leaves open. -/
def enterLocked (s : State) : State :=
  let s1 := startFrame s
  let s2 := { s1 with clk := { s1.clk with
      lockedSince := true, missing := 0, lockDue := false, spacing := 0, window := some ⟨0, 0⟩ } }
  composeFrame (changeClock .locked s2)

/-- An edge in QUALIFYING, the spacing timer standing at the edge's spacing (R206, R207). -/
def qualifyEdge (s : State) : State :=
  let c := s.clk
  if wellSpaced c.spacing then
    if c.heldOpen && decide (Config.minSpacing ≤ c.frameAge) then enterLocked s
    else
      let count := min (c.qualCount + 1) Config.qualifyEdges
      { s with clk := { c with qualCount := count, lockDue := c.lockDue || count == Config.qualifyEdges, spacing := 0 } }
  else { s with clk := { c with qualCount := 0, lockDue := false, spacing := 0 } }

/-- The next frame of a locked clock, from an edge or a fill at the current cycle: its cycles join the divider window, the
frame starts and is measured from there (R208, R210). Where the frame is the fourth filled one, its boundary is taken here,
before the loss: DESIGN CHOICE (assumption log 25) for a window that the boundary fills. -/
def nextLockedFrame (missing : Nat) (s : State) : State :=
  startFrame { s with clk := { s.clk with
    missing := missing
    spacing := 0
    window := s.clk.window.map fun w => { w with cycles := w.cycles + s.clk.frameAge } } }

/-- An edge in LOCKED: sooner than 2483 cycles it is ignored, otherwise it starts the next frame (R208). -/
def lockedEdge (s : State) : State :=
  if s.clk.frameAge < Config.minSpacing then s
  else composeFrame (nextLockedFrame 0 s)

/-- An edge, the clock standing at its cycle, by clock state (R206, R208). -/
def takeEdge (s : State) : State :=
  match s.clk.state with
  | .free | .holdover =>
    changeClock .qualifying
      { s with clk := { s.clk with qualCount := 0, lockDue := false, spacing := 0 } }
  | .qualifying => qualifyEdge s
  | .locked => lockedEdge s

/-- XFS_EDGE at a cycle of the current frame, not before the last step that fell in it nor after the frame's end. -/
def execXfsEdge (cycle : Nat) (s : State) : Host.Outcome State Fault Refusal :=
  whenDue (s.working && decide (s.clk.frameAge ≤ cycle) && decide (cycle ≤ s.clk.frameLimit)) s
    (takeEdge { s with clk := s.clk.passTo cycle })

/-! ## LOCK_HANDOVER_TIMEOUT (R207) -/

/-- LOCK_HANDOVER_TIMEOUT: the held-open frame 3 ends at 5120 cycles, the mark clears, the count returns to 0, and the
unit stays in QUALIFYING. -/
def execLockHandoverTimeout (s : State) : Host.Outcome State Fault Refusal :=
  whenDue (s.working && s.clk.heldOpen) s
    (startFrame { s with clk := { s.clk.passTo Config.handoverLimit with lockDue := false, qualCount := 0 } })

/-! ## QUALIFY_TIMEOUT (R206) -/

/-- The cycle of the current frame at which 10240 cycles have passed since the last edge. -/
def Clock.lossCycle (c : Clock) : Nat := c.frameAge + (Config.qualifyTimeoutCycles - c.spacing)

/-- QUALIFY_TIMEOUT: the reference is lost at that cycle, which falls in the current frame. -/
def execQualifyTimeout (s : State) : Host.Outcome State Fault Refusal :=
  whenDue (s.working && s.clk.state == .qualifying && decide (s.clk.lossCycle ≤ s.clk.frameLimit)) s
    (changeClock (lostState s.clk)
      { s with clk := { s.clk.passTo s.clk.lossCycle with qualCount := 0, lockDue := false } })

/-! ## FILLED_FRAME (R208) -/

/-- The loss of the reference at the start of the fourth filled frame: the open divider window is discarded and the clock
goes to HOLDOVER; XTXD stays released (R156, R208). DESIGN CHOICE (assumption log 25): a window that the boundary of the
same frame has filled is closed, not discarded. -/
def loseReference (s : State) : State :=
  changeClock .holdover { s with clk := { s.clk with window := none, losses := s.clk.losses + 1 } }

/-- The expiries that are taken before a loss of the reference on the same boundary, frame 0 of a tick: a free value says
which, and in what order, since R140 leaves it open (assumption log 11). -/
def expiriesBeforeLoss (s : State) : State :=
  if s.clk.frame = 0 then takeAllExpiries (Config.expiriesFirst s.clk.losses) s else s

/-- FILLED_FRAME: at cycle 2637 with no edge the unit starts the next frame itself; the fourth in a row loses the
reference before that frame is composed (R156, R208), expiries of the same boundary taken before or after it (R140). DESIGN
CHOICE (assumption log 24): where that frame is frame 0 of a tick, the visit that the boundary asks for is queued before the
journal request of the CLOCK record, an order R161 leaves open. DESIGN CHOICE (assumption log 25): where that boundary is
also the 256th of the open divider window, the window closes before the loss, which discards the window just opened;
R208 and R210 leave open which comes first. -/
def execFilledFrame (s : State) : Host.Outcome State Fault Refusal :=
  let s1 := nextLockedFrame (s.clk.missing + 1) { s with clk := s.clk.passTo Config.maxSpacing }
  whenDue (s.working && s.clk.state == .locked) s
    (if 4 ≤ s.clk.missing + 1 then loseReference (expiriesBeforeLoss s1) else composeFrame s1)

/-! ## DIVIDER_WINDOW_CLOSE (R210) -/

/-- The learned divider of a window's cycle count: divided by 256, halves up, clamped (R210). -/
def learnedDivider (cycles : Nat) : Nat :=
  max Config.dividerMin (min ((cycles + 128) / 256) Config.dividerMax)

/-- DIVIDER_WINDOW_CLOSE: the divider is recomputed from the window whose 256th boundary has come. -/
def execDividerWindowClose (s : State) : Host.Outcome State Fault Refusal :=
  match s.clk.windowDone with
  | some cycles =>
    whenDue s.working s { s with clk := { s.clk with divider := learnedDivider cycles, windowDone := none } }
  | none => .next s

end Sys2Proof.Machine
end

