-- ==== Sys2Proof/Machine/Layout.lean ====
section
/-! DEFINITION. The words the part writes, bit for bit: line reports (R178, R186), the device words of the common header
(R183, R185), journal records (R188), and what a register reads as (R213). -/

namespace Sys2Proof.Machine

/-! ## Codes (R184 to R188, R213) -/

def MainState.code : MainState → Nat
  | .outOfService => 0
  | .blocked _ => 1
  | .onHook => 2
  | .seizing => 3
  | .collecting => 4
  | .through => 5
  | .suspended => 6

def BlockReason.code : BlockReason → Nat
  | .admin => 0
  | .fault => 1

/-- The block reason bit of the report: 0 when the main state is not BLOCKED (R186). -/
def MainState.reasonCode : MainState → Nat
  | .blocked r => r.code
  | .outOfService => 0
  | .onHook => 0
  | .seizing => 0
  | .collecting => 0
  | .through => 0
  | .suspended => 0

def LineClass.code : LineClass → Nat
  | .normal => 0
  | .urgent => 1

def SubState.code : SubState → Nat
  | .idle => 0
  | .brk => 1
  | .make => 2

def PathState.code : PathState → Nat
  | .pass => 0
  | .mute => 1
  | .tone => 2

def resumeCode : Option ResumeTarget → Nat
  | none => 0
  | some .collecting => 1
  | some .through => 2

def Origin.code : Origin → Nat
  | .dialled => 0
  | .flash => 1
  | .endKey => 2
  | .injected => 3

def ProfileOutcome.code : ProfileOutcome → Nat
  | .adopted => 0
  | .deferred => 1
  | .rejectedCheck => 2
  | .rejectedField _ => 3

/-- The field number of an outcome, 0 for every outcome but REJECTED_FIELD (R173). -/
def ProfileOutcome.field : ProfileOutcome → Nat
  | .adopted => 0
  | .deferred => 0
  | .rejectedCheck => 0
  | .rejectedField f => f

def RequestOutcome.code : RequestOutcome → Nat
  | .done => 0
  | .wrongState => 1
  | .noRoom => 2
  | .badOperand => 3
  | .unknownRequest => 4

def PlanOutcome.code : PlanOutcome → Nat
  | .adopted => 0
  | .rejectedCheck => 1

def ClockState.code : ClockState → Nat
  | .free => 0
  | .qualifying => 1
  | .locked => 2
  | .holdover => 3

def PortState.code : PortState → Nat
  | .idle => 0
  | .starting => 1
  | .running => 2
  | .halting => 3
  | .faulted => 4

def ResetCause.code : ResetCause → Nat
  | .powerOn => 0
  | .pin => 1
  | .soft => 2

def FaultCode.code : FaultCode → Nat
  | .none => 0
  | .busError => 1
  | .busTimeout => 2
  | .badHeader => 3

def NumberOutcome.code : NumberOutcome → Nat
  | .exact => 0
  | .timeout => 1
  | .unmatched => 2
  | .full => 3
  | .forced => 4

def SendReason.code : SendReason → Nat
  | .empty => 0
  | .flushed => 1
  | .cut => 2

def Disposition.code : Disposition → Nat
  | .none => 0
  | .collected => 1
  | .collectedStored => 2
  | .collectedDropped => 3
  | .stored => 4
  | .dropped => 5
  | .ignored => 6
  | .discarded => 7

/-! ## Line reports (R177, R178, R186) -/

/-- The number of an optional edition; 0 with its mark clear (R177). -/
def editionCode (e : Option Byte) : Nat := (e.getD 0).toNat

/-- The six report words of line n, for a visit time, in ascending address order; the tick-in-second word is last. DESIGN
CHOICE (assumption log 22): with an empty store the head key and its origin are written 0. -/
def reportWords (l : Line) (visit : DevTime) : List Word :=
  [ pack [(editionCode l.profileEdition, 0, 8), (l.profileOutcome.code, 8, 2), (l.profileOutcome.field, 10, 5),
      (bit l.adoptedEdition.isSome, 15, 1), (editionCode l.adoptedEdition, 16, 8),
      (editionCode l.requestEdition, 24, 8)],
    pack [(l.requestOutcome.code, 0, 3), (l.main.code, 3, 3), (l.main.reasonCode, 6, 1), (l.cls.code, 7, 1),
      (l.sub.code, 8, 2), (l.path.code, 10, 2), (l.pulses, 12, 4), (l.digits.length, 16, 5),
      (resumeCode l.resumeTarget, 21, 2), ((l.attached.map (·.val)).getD 31, 24, 5)],
    pack [(l.estimate, 0, 19), (l.store.length, 24, 6)],
    pack [((l.store.head?.map (·.key.val)).getD 0, 0, 4), ((l.store.head?.map (·.origin.code)).getD 0, 4, 2),
      (bit l.store.head?.isSome, 6, 1), (l.sticky.toNat, 8, 9), (l.lastCauses.toNat, 20, 9)],
    visit.seconds,
    pack [(visit.tick, 0, 11)] ]

/-! ## Header words (R183, R185) -/

/-- The four device words of the common header, at offsets 32 to 47. DESIGN CHOICE (assumption log 22): an
edition whose mark is clear is written 0. -/
def headerWords (s : State) : List Word :=
  [ pack [(editionCode s.arc.planTakenUp, 0, 8), (s.arc.loadOutcome.code, 8, 1), (bit s.plan.edition.isSome, 15, 1),
      (s.arc.loadIgnored, 16, 7), (editionCode s.plan.edition, 24, 8)],
    pack [(editionCode s.clk.settle.timeAdopted, 0, 8), (s.clk.state.code, 8, 2),
      (bit s.clk.settle.timeAdopted.isSome, 16, 1)],
    s.now.seconds,
    pack [(s.now.tick, 0, 11)] ]

/-! ## Journal records (R188, R191, R198) -/

/-- The kind code of a record. -/
def RecordBody.kind : RecordBody → Nat
  | .seize => 1
  | .digit .. => 2
  | .flash _ => 3
  | .number .. => 4
  | .sendDone .. => 5
  | .release _ => 6
  | .exception .. => 7
  | .block _ => 8
  | .unblock _ => 9
  | .profile .. => 10
  | .plan .. => 11
  | .clock _ => 12
  | .gap _ => 13

/-- The word at offset 8 of a record. -/
def RecordBody.word8 : RecordBody → Word
  | .seize => 0
  | .digit key pulses disposition causes _ =>
    pack [((key.map (·.val)).getD 15, 0, 4), (pulses, 4, 4), (disposition.code, 8, 3), (causes.toNat, 16, 9)]
  | .flash disposition => pack [(disposition.code, 8, 3)]
  | .number outcome length entry cls _ =>
    pack [(outcome.code, 0, 3), (length, 8, 5), (entry.getD 127, 16, 7), (cls.code, 24, 1)]
  | .sendDone sender _ reason => pack [(sender.val, 0, 4), (reason.code, 8, 2)]
  | .release discarded => pack [(discarded, 0, 6)]
  | .exception trapped prior => pack [(trapped.toNat, 0, 9), (prior.code, 16, 3)]
  | .block reason => pack [(reason.code, 0, 1)]
  | .unblock reason => pack [(reason.code, 0, 1)]
  | .profile edition outcome => pack [(edition.toNat, 0, 8), (outcome.code, 8, 2), (outcome.field, 16, 5)]
  | .plan edition outcome ignored => pack [(edition.toNat, 0, 8), (outcome.code, 8, 1), (ignored, 16, 7)]
  | .clock state => pack [(state.code, 0, 2)]
  | .gap lost => pack [(lost, 0, 16)]

/-- The word at offset 12 of a record. -/
def RecordBody.word12 : RecordBody → Word
  | .digit _ _ _ _ estimate => pack [(estimate, 0, 19)]
  | .number _ _ _ _ causes => pack [(causes.toNat, 0, 9)]
  | .sendDone _ keysSent _ => pack [(keysSent, 0, 16)]
  | .seize => 0
  | .flash _ => 0
  | .release _ => 0
  | .exception .. => 0
  | .block _ => 0
  | .unblock _ => 0
  | .profile .. => 0
  | .plan .. => 0
  | .clock _ => 0
  | .gap _ => 0

/-- The four words of a record with its sequence number (R188). -/
def recordWords (sequence : Nat) (r : Record) : List Word :=
  [ pack [(sequence, 0, 16), (r.body.kind, 16, 8), ((r.line.map (·.val)).getD 255, 24, 8)],
    pack [(r.time.seconds.toNat, 0, 16), (r.time.tick, 16, 11)],
    r.body.word8,
    r.body.word12 ]

/-- The words of the records of one sequence, numbered from a sequence number on (R198). -/
def recordsWords : Nat → List Record → List Word
  | _, [] => []
  | sequence, r :: rest => recordWords (sequence % 65536) r ++ recordsWords (sequence + 1) rest

/-! ## Reading the registers (R213 to R217) -/

/-- STATUS as a read finds it (R213, R216). -/
def statusWord (s : State) : Word :=
  pack [(s.arc.port.code, 0, 3), (s.clk.state.code, 3, 2), (s.regs.resetCause.code, 5, 2), (bit s.regs.powerOnFlag, 7, 1),
    (s.regs.faultCode.code, 8, 2)]

/-- What a read of the register at an address answers; only address bits 2 and 3 are decoded (R213). -/
def readRegister (address : Word) (s : State) : Word :=
  let i := field address 2 2
  if i = 0 then s.regs.areaBase
  else if i = 1 then 0
  else if i = 2 then statusWord s
  else pack [(s.regs.attention.toNat, 0, 4)]

end Sys2Proof.Machine
end

