-- ==== Sys2Proof/Machine/Expiries.lean ====
section
/-! DEFINITION. The expiries of a line, each a step of its own after the sample of its tick: GUARD_EXPIRY,
INTERDIGIT_EXPIRY, COMPLETION_TIMER_EXPIRY, RELEASE, FAULT_BLOCK, FAULT_RETURN. Their records are dated to the tick of
that sample (R1). An expiry that has come due stays due until its step is taken (assumption log 2). -/

namespace Sys2Proof.Machine

/-- The tick the line events of the last scan frame are dated to (R1). -/
def State.sampleTime (s : State) : DevTime := s.scan.sampleAt

/-! ## GUARD_EXPIRY (R21) -/

/-- The guard has expired: in SEIZING, the loop closed, the seizure make's length at G (R21). -/
def Line.guardDue (l : Line) : Bool :=
  match l.adopted with
  | some p => l.main == .seizing && l.loop == .closed && decide (p.guard ≤ l.phaseTimer)
  | none => false

/-- GUARD_EXPIRY of line n. -/
def execGuardExpiry (n : LineNo) (s : State) : Host.Outcome State Fault Refusal :=
  whenDue (s.working && (s.line n).guardDue) s (enterCollecting n s.sampleTime s)

/-! ## INTERDIGIT_EXPIRY (R46, R56 to R61) -/

/-- The make inside a train has reached T_id (R46). DESIGN CHOICE (assumption log 21): a make of exactly T_id that a break
ends has not reached it, as R81 says; R82's words on a T_id at the makes inside a train could be read otherwise. -/
def Line.interdigitDue (l : Line) : Bool :=
  match l.threshold with
  | some t => l.main.dialling && l.sub == .make && decide (t ≤ l.intervalTimer)
  | none => false

/-- The key a digit end offers to the store, by state, mode and policy (R59, R60). -/
def digitKeys (p : Profile) (main : MainState) (key : Option Key) : List StoredKey :=
  match key with
  | none => []
  | some k =>
    if main = .collecting then (if p.sendingMode = .overlap then [⟨k, .dialled⟩] else [])
    else (if p.afterCompletion = .forward then [⟨k, .dialled⟩] else [])

/-- The condition set of a digit end (R56, R58, R85). -/
def digitSet (key : Option Key) (full : Bool) : CondSet :=
  Cond.when key.isNone Cond.overcount ||| Cond.when full Cond.storeFull

/-- The disposition of an untrapped digit end (R58, R59, R60). -/
def digitDisposition (p : Profile) (main : MainState) (key : Option Key) (full : Bool) : Disposition :=
  if key.isNone then .discarded
  else if main = .collecting then
    (match p.sendingMode with
      | .overlap => if full then .collectedDropped else .collectedStored
      | .enBloc => .collected)
  else (match p.afterCompletion with
    | .forward => if full then .dropped else .stored
    | .ignore => .ignored)

/-- The call digits and the completion timer after an untrapped digit end: in COLLECTING the key joins the string and the
timer restarts (R59, R97, R98). -/
def Line.collect (key : Option Key) (l : Line) : Line :=
  match key with
  | some k => if l.main = .collecting then { l with digits := l.digits ++ [k] }.restartTimer else l
  | none => l

/-- The digit end (R56): the set is applied, the digit disposed of unless it is trapped, the DIGIT record handed over, the
train fields returned to idle; a trapped set suspends the line, and otherwise a digit that joined the call digits is
evaluated. The joining test is made when all of it is done. -/
def endDigit (n : LineNo) (p : Profile) (d : DevTime) (s : State) : State :=
  let l := s.line n
  let key := digitKey p.numbering l.pulses
  let ks := digitKeys p l.main key
  let full := offerDrops ks l.store
  let set := digitSet key full
  let l1 := l.applySet true set
  let l2 := if l.traps set then l1 else { l1.collect key with store := offer ks l1.store }
  let disposition := if l.traps set then .discarded else digitDisposition p l.main key full
  let s1 := handOver (lineRecord n d (.digit key l.pulses disposition l1.causes l1.estimate))
    (s.setLine n { l2.dropTrain with lastCauses := l1.causes })
  if l.traps set then suspendLine n set (resumeTargetOf l.main) l.main d s1
  else if l.main = .collecting ∧ key.isSome = true then joinTest n (evaluateAfterDigit n p d s1)
  else joinTest n s1

/-- INTERDIGIT_EXPIRY of line n. -/
def execInterdigitExpiry (n : LineNo) (s : State) : Host.Outcome State Fault Refusal :=
  match (s.line n).adopted with
  | some p => whenDue (s.working && (s.line n).interdigitDue) s (endDigit n p s.sampleTime s)
  | none => .next s

/-! ## RELEASE (R22 to R24, R47) -/

/-- The release limit has been reached: in a call, the loop open, the current break at Rel (R22, R47). -/
def Line.releaseDue (l : Line) : Bool :=
  match l.adopted with
  | some p => l.main.inCall && l.loop == .opened && decide (p.rel ≤ l.intervalTimer)
  | none => false

/-- The release: its record, the release effects, ON_HOOK, and the adoption of a pending profile (R22, R24, R35). -/
def releaseLine (n : LineNo) (d : DevTime) (s : State) : State :=
  adoptPending n d
    (releaseEffects n .onHook d (handOver (lineRecord n d (.release (s.line n).store.length)) s))

/-- RELEASE of line n. -/
def execRelease (n : LineNo) (s : State) : Host.Outcome State Fault Refusal :=
  whenDue (s.working && (s.line n).releaseDue) s (releaseLine n s.sampleTime s)

/-! ## COMPLETION_TIMER_EXPIRY (R98, R99, R109) -/

/-- The completion timer has reached T_c, and the interdigit and release expiries that the tick tests before it are not
due (R99). -/
def Line.completionDue (l : Line) : Bool :=
  match l.adopted, l.completionTimer with
  | some p, some e =>
    l.main == .collecting && decide (p.tComplete ≤ e) && !l.interdigitDue && !l.releaseDue
  | _, _ => false

/-- The evaluation at the timer's expiry, which always completes the number (R109). -/
def expireCompletion (n : LineNo) (p : Profile) (d : DevTime) (s : State) : State :=
  let ev := evaluate s.plan.table (s.line n).digits
  completeNumber n p (outcomeAtExpiry ev) ev d (raiseClass n ev s)

/-- COMPLETION_TIMER_EXPIRY of line n, after the sample of the tick (R99). -/
def execCompletionTimerExpiry (n : LineNo) (s : State) : Host.Outcome State Fault Refusal :=
  match (s.line n).adopted with
  | some p =>
    whenDue (s.working && s.scan.tickSampled && (s.line n).completionDue) s (expireCompletion n p s.sampleTime s)
  | none => .next s

/-! ## FAULT_BLOCK (R10, R32) -/

/-- The fault run reached the persistence at the FAULT sample just taken; a release due on the same sample is taken
first, and a profile it adopts does not bear on this comparison (R10, R14, R32; assumption log 9). -/
def Line.faultBlockDue (l : Line) : Bool := l.runTestMet && l.main.conditioning && !l.releaseDue

/-- Entry to BLOCKED from any state but OUT_OF_SERVICE: the BLOCK record, the release effects in a call, the loop
conditioning at rest, and the adoption of a pending profile (R10, R13, R30, R32, R35). -/
def enterBlocked (n : LineNo) (reason : BlockReason) (d : DevTime) (s : State) : State :=
  let inCall := (s.line n).main.inCall
  let s1 := handOver (lineRecord n d (.block reason)) (s.setLine n (s.line n).restart)
  adoptPending n d
    (if inCall then releaseEffects n (.blocked reason) d s1
      else s1.setLine n { s1.line n with main := .blocked reason, sub := .idle })

/-- FAULT_BLOCK of line n. -/
def execFaultBlock (n : LineNo) (s : State) : Host.Outcome State Fault Refusal :=
  whenDue (s.working && (s.line n).faultBlockDue) s (enterBlocked n .fault s.sampleTime s)

/-! ## FAULT_RETURN (R12, R33) -/

/-- The clear run reached the persistence, a persistence of 0 taken as 1, at the sample just taken (R12). -/
def Line.faultReturnDue (l : Line) : Bool := l.runTestMet && l.main == .blocked .fault

/-- How many samples still to come belong to the present tick or to ticks before it (R1, R2). -/
def ScanPort.samplesDue (p : ScanPort) : Nat := if p.shifting then p.owed + 1 else 0

/-- The line back in ON_HOOK from BLOCKED, its conditioning restarted (R12, R13, R31). -/
def Line.unblocked (skip : Nat) (l : Line) : Line := { l.restart with main := .onHook, skipSamples := skip }

/-- The return of a line from BLOCKED to ON_HOOK with an UNBLOCK record and a restart (R12, R31, R33). After a fault
return the sample of the tick has been taken; an UNBLOCK may come before it, and then integration starts with the
next tick's sample all the same (R31). -/
def leaveBlocked (n : LineNo) (reason : BlockReason) (d : DevTime) (s : State) : State :=
  handOver (lineRecord n d (.unblock reason))
    (s.setLine n ((s.line n).unblocked (match reason with
      | .admin => s.scan.samplesDue
      | .fault => 0)))

/-- FAULT_RETURN of line n. -/
def execFaultReturn (n : LineNo) (s : State) : Host.Outcome State Fault Refusal :=
  whenDue (s.working && (s.line n).faultReturnDue) s (leaveBlocked n .fault s.sampleTime s)

end Sys2Proof.Machine
end

