-- ==== Sys2Proof/Machine/Requests.lean ====
section
/-! DEFINITION. The request step (R174 to R176) and the ten request rows of the table. A row of the table is the request
step of a take-up whose request code is the row's (assumption log 3); LINE_TAKE_UP runs the same step. -/

namespace Sys2Proof.Machine

/-- NONE does nothing and answers DONE (R175). -/
def doNone (s : State) : State × RequestOutcome := (s, .done)

/-- The outcome of an INJECT: the first case of R122 that applies. -/
def injectOutcome (count : Nat) (l : Line) : RequestOutcome :=
  if !l.main.dialling then .wrongState
  else if count = 0 ∨ 8 < count then .badOperand
  else if Config.storeRoom < l.store.length + count then .noRoom
  else .done

/-- INJECT appends its keys whole with origin INJECTED, or refuses (R122). -/
def doInject (n : LineNo) (count : Nat) (keys : Word) (s : State) : State × RequestOutcome :=
  let o := injectOutcome count (s.line n)
  (if o = .done then
    joinTest n (offerTo n ((operandKeys count keys).map fun k => ⟨k, .injected⟩) s)
  else s, o)

/-- FLUSH removes the keys, keeping a key in flight and setting the flush mark when a sender is attached (R124, R138). -/
def doFlush (n : LineNo) (s : State) : State × RequestOutcome :=
  let l := s.line n
  if l.main.inCall then
    if l.store.isEmpty then (s, .done)
    else match l.attached with
      | some k =>
        ((s.setLine n { l with store := l.store.take 1 }).setSender k { s.sender k with flushMark := true }, .done)
      | none => (leaveWait n (s.setLine n { l with store := [] }), .done)
  else (s, .wrongState)

/-- END_NUMBER completes the number FORCED in COLLECTING with call digits held (R110). -/
def doEndNumber (n : LineNo) (d : DevTime) (s : State) : State × RequestOutcome :=
  let l := s.line n
  match l.adopted with
  | some p =>
    if l.main = .collecting ∧ l.digits ≠ [] then
      let ev := evaluate s.plan.table l.digits
      (completeNumber n p .forced ev d (raiseClass n ev s), .done)
    else (s, .wrongState)
  | none => (s, .wrongState)

/-- The line returned to its resume target (R29). -/
def Line.resumeTo (target : ResumeTarget) (l : Line) : Line :=
  match target with
  | .collecting =>
    let l1 := { l with main := .collecting, resumeTarget := none }
    if l.digits.isEmpty then l1 else l1.restartTimer
  | .through => { l with main := .through, resumeTarget := none }

/-- RESUME returns a SUSPENDED line to its target and rejoins the wait list as needed (R29). -/
def doResume (n : LineNo) (s : State) : State × RequestOutcome :=
  let l := s.line n
  if l.main = .suspended then
    match l.resumeTarget with
    | some t => (joinTest n (s.setLine n (l.resumeTo t)), .done)
    | none => (s, .wrongState)
  else (s, .wrongState)

/-- CLEAR_FLAGS empties the sticky flags in every state (R93). -/
def doClearFlags (n : LineNo) (s : State) : State × RequestOutcome :=
  (s.setLine n { s.line n with sticky := 0 }, .done)

/-- BLOCK (R30). -/
def doBlock (n : LineNo) (d : DevTime) (s : State) : State × RequestOutcome :=
  match (s.line n).main with
  | .outOfService => (s, .wrongState)
  | .blocked .admin => (s, .done)
  | .blocked .fault => (enterBlocked n .admin d s, .done)
  | .onHook => (enterBlocked n .admin d s, .done)
  | .seizing => (enterBlocked n .admin d s, .done)
  | .collecting => (enterBlocked n .admin d s, .done)
  | .through => (enterBlocked n .admin d s, .done)
  | .suspended => (enterBlocked n .admin d s, .done)

/-- UNBLOCK returns a BLOCKED(ADMIN) line to ON_HOOK (R31). -/
def doUnblock (n : LineNo) (d : DevTime) (s : State) : State × RequestOutcome :=
  if (s.line n).main = .blocked .admin then (leaveBlocked n .admin d s, .done) else (s, .wrongState)

/-- RESET_SPEED sets the period estimate to 16·P_nom of the adopted profile (R70). -/
def doResetSpeed (n : LineNo) (s : State) : State × RequestOutcome :=
  let l := s.line n
  match l.adopted with
  | some p =>
    if l.main = .outOfService then (s, .wrongState)
    else (s.setLine n { l with estimate := 16 * p.pNom }, .done)
  | none => (s, .wrongState)

/-- A request code of 9 to 255 changes nothing (R175). -/
def doUnknown (s : State) : State × RequestOutcome := (s, .unknownRequest)

/-- The request a code names (R175). -/
def doRequest (code count : Nat) (keys : Word) (n : LineNo) (d : DevTime) (s : State) : State × RequestOutcome :=
  if code = 0 then doNone s
  else if code = 1 then doInject n count keys s
  else if code = 2 then doFlush n s
  else if code = 3 then doEndNumber n d s
  else if code = 4 then doResume n s
  else if code = 5 then doClearFlags n s
  else if code = 6 then doBlock n d s
  else if code = 7 then doUnblock n d s
  else if code = 8 then doResetSpeed n s
  else doUnknown s

/-- The acknowledgement: the edition and the outcome in the line record (R174). -/
def acknowledge (n : LineNo) (edition : Byte) (r : State × RequestOutcome) : State :=
  r.1.setLine n { r.1.line n with requestEdition := some edition, requestOutcome := r.2 }

/-- The request step: nothing when the edition is the one acknowledged, and otherwise the request and its
acknowledgement (R174). -/
def takeRequest (n : LineNo) (edition : Byte) (s : State) (result : State × RequestOutcome) : State :=
  if (s.line n).requestEdition = some edition then s else acknowledge n edition result

/-! ## The rows -/

/-- NONE (R175). -/
def execNone (n : LineNo) (edition : Byte) (s : State) : Host.Outcome State Fault Refusal :=
  whenDue s.working s (takeRequest n edition s (doNone s))

/-- INJECT (R122). -/
def execInject (n : LineNo) (edition count : Byte) (keys : Word) (s : State) : Host.Outcome State Fault Refusal :=
  whenDue s.working s (takeRequest n edition s (doInject n count.toNat keys s))

/-- FLUSH (R124). -/
def execFlush (n : LineNo) (edition : Byte) (s : State) : Host.Outcome State Fault Refusal :=
  whenDue s.working s (takeRequest n edition s (doFlush n s))

/-- END_NUMBER (R110). -/
def execEndNumber (n : LineNo) (edition : Byte) (s : State) : Host.Outcome State Fault Refusal :=
  whenDue s.working s (takeRequest n edition s (doEndNumber n s.now s))

/-- RESUME (R29). -/
def execResume (n : LineNo) (edition : Byte) (s : State) : Host.Outcome State Fault Refusal :=
  whenDue s.working s (takeRequest n edition s (doResume n s))

/-- CLEAR_FLAGS (R93). -/
def execClearFlags (n : LineNo) (edition : Byte) (s : State) : Host.Outcome State Fault Refusal :=
  whenDue s.working s (takeRequest n edition s (doClearFlags n s))

/-- BLOCK (R30). -/
def execBlock (n : LineNo) (edition : Byte) (s : State) : Host.Outcome State Fault Refusal :=
  whenDue s.working s (takeRequest n edition s (doBlock n s.now s))

/-- UNBLOCK (R31). -/
def execUnblock (n : LineNo) (edition : Byte) (s : State) : Host.Outcome State Fault Refusal :=
  whenDue s.working s (takeRequest n edition s (doUnblock n s.now s))

/-- RESET_SPEED (R70). -/
def execResetSpeed (n : LineNo) (edition : Byte) (s : State) : Host.Outcome State Fault Refusal :=
  whenDue s.working s (takeRequest n edition s (doResetSpeed n s))

/-- UNKNOWN_REQUEST: the code is one of 9 to 255, and changes nothing (R175). -/
def execUnknownRequest (n : LineNo) (edition _code : Byte) (s : State) : Host.Outcome State Fault Refusal :=
  whenDue s.working s (takeRequest n edition s (doUnknown s))

end Sys2Proof.Machine
end

