-- ==== Sys2Proof/Machine/Port.lean ====
section
/-! DEFINITION. The Area Controller's port: the bus and its faults (R161, R218), line visits (R164 to R178), header visits
and plan loads (R179 to R183), the STARTING sequence (R218). -/

namespace Sys2Proof.Machine

/-! ## Sequences -/

/-- A sequence at its start: BUSREQ_N asserted, nothing granted, nothing read. -/
def Sequence.begin (kind : SequenceKind) (base : Word) : Sequence :=
  { kind := kind, stage := .reading, granted := false, base := base, got := [], planAddress := 0, planEdition := 0
    visitTime := .zero, out := none, written := 0, count := 0 }

/-- How many words a reading stage reads (R164, R179, R181, R195, R218). -/
def Sequence.readsWanted (q : Sequence) : Nat :=
  match q.stage with
  | .planReading => (match q.got with
    | [] => 1
    | w :: _ => planWords w)
  | _ => (match q.kind with
    | .starting => 4
    | .lineVisit _ => 10
    | .headerVisit => 5
    | .journal => 1)

/-- The address of the first word a reading stage reads (R159, R164, R179, R181, R195, R218). -/
def Sequence.readBase (q : Sequence) : Word :=
  match q.stage with
  | .planReading => q.planAddress
  | _ => (match q.kind with
    | .starting => q.base
    | .lineVisit n => q.base + BitVec.ofNat 32 (Config.headerBytes + Config.descriptorBytes * n.val)
    | .headerVisit => q.base + 8
    | .journal => q.base + 12)

/-- The address of write i of a sequence (R164, R179, R189, R195). DESIGN CHOICE (assumption log 4): it wraps modulo 2^32. -/
def writeAddress (j : JournalUnit) (q : Sequence) (i : Nat) : Word :=
  match q.kind with
  | .starting => q.base
  | .lineVisit n => q.base + BitVec.ofNat 32 (Config.headerBytes + Config.descriptorBytes * n.val + 40 + 4 * i)
  | .headerVisit => q.base + BitVec.ofNat 32 (32 + 4 * i)
  | .journal =>
    if i < 4 * q.count then j.base + BitVec.ofNat 32 (16 * ((j.head + i / 4) % j.slots) + 4 * (i % 4))
    else q.base + 28

/-- A transfer of the sequence is in progress on the bus. -/
def Sequence.transferring (q : Sequence) : Bool :=
  q.granted && (q.stage == .reading || q.stage == .planReading || q.stage == .writing)

/-! ## The bus pins -/

/-- BUSREQ_N is low (false) until the last transfer of the sequence completes or is abandoned (11, "Signal notes"). -/
def busReqN (s : State) : Bool :=
  match s.arc.inFlight with
  | some q => q.stage == .writeDone || (q.kind == .starting && q.stage == .readDone)
  | none => true

/-- ADDR[31:0] of the transfer in progress. DESIGN CHOICE (assumption log 4): an address wraps modulo 2^32. -/
def busAddress (s : State) : Option Word :=
  match s.arc.inFlight with
  | some q =>
    if q.transferring then
      some (if q.stage = .writing then writeAddress s.jnl q q.written
        else q.readBase + BitVec.ofNat 32 (4 * q.got.length))
    else none
  | none => none

/-- RD_WR of the transfer in progress: true is a write. -/
def busWriting (s : State) : Option Bool :=
  match s.arc.inFlight with
  | some q => if q.transferring then some (q.stage == .writing) else none
  | none => none

/-! ## Faults and ends of sequences -/

/-- Put a sequence in place of the one in flight. -/
def putSequence (q : Sequence) (s : State) : State := { s with arc := { s.arc with inFlight := some q } }

/-- Entry to FAULTED: the sequence is abandoned, the queued requests withdrawn, the fault code recorded and the FAULT bit
set; the hold-off is cleared on leaving RUNNING (R161, R194, R216, R218). -/
def portFault (code : FaultCode) (s : State) : State :=
  setAttention Attention.fault
    { s with
      regs := { s.regs with faultCode := code }
      arc := { s.arc with port := .faulted, haltTaken := false, queue := [], inFlight := none, busWait := 0 }
      jnl := { s.jnl with holdOff := false, holdOffDue := false } }

/-- The port enters IDLE with no sequence in flight. -/
def portIdle (s : State) : State :=
  { s with arc := { s.arc with port := .idle, haltTaken := false, inFlight := none, busWait := 0 } }

/-- A sequence ends: a HALTING port enters IDLE, and otherwise the Journal Unit may ask for a sequence (R194, R215). -/
def endSequence (s : State) : State :=
  if s.arc.port = .halting then portIdle s
  else requestJournal { s with arc := { s.arc with inFlight := none, busWait := 0 } }

/-! ## SEQUENCE_START, BUS_GRANT, TRANSFER_DONE, BUS_ERROR, BUS_TIMEOUT (R161, R218) -/

/-- The sequence a queued request begins: a visit of the slot at the sweep position, or a journal sequence. -/
def requestedSequence (r : PortRequest) (s : State) : Sequence :=
  match r with
  | .journal => Sequence.begin .journal s.arc.base
  | .visit =>
    if h : s.arc.sweep.val < 96 then Sequence.begin (.lineVisit ⟨s.arc.sweep.val, h⟩) s.arc.base
    else Sequence.begin .headerVisit s.arc.base

/-- SEQUENCE_START: with no sequence in flight the oldest queued request is served (R161). -/
def execSequenceStart (s : State) : Host.Outcome State Fault Refusal :=
  match s.arc.queue with
  | r :: rest =>
    whenDue (s.working && s.arc.port == .running && s.arc.inFlight.isNone) s
      { s with arc := { s.arc with queue := rest, inFlight := some (requestedSequence r s), busWait := 0 } }
  | [] => .next s

/-- BUS_GRANT: BUSGNT_N after BUSREQ_N; the count of boundaries restarts (R218). -/
def execBusGrant (s : State) : Host.Outcome State Fault Refusal :=
  match s.arc.inFlight with
  | some q =>
    whenDue (s.working && !q.granted) s
      { s with arc := { s.arc with inFlight := some { q with granted := true }, busWait := 0 } }
  | none => .next s

/-- A read of the sequence completes with a word. -/
def readDone (data : Word) (q : Sequence) (s : State) : State :=
  let q1 := { q with got := q.got ++ [data] }
  if q1.got.length < q1.readsWanted then putSequence q1 s
  else if q.kind = .starting ∧ s.arc.haltTaken = true then portIdle s
  else putSequence { q1 with stage := if q.stage = .planReading then .planReadDone else .readDone } s

/-- The words of a visit's writing step, composed from the state as it stands (R178, R183). -/
def composeWords (q : Sequence) (s : State) : List Word :=
  match q.kind with
  | .lineVisit n => reportWords (s.line n) q.visitTime
  | .headerVisit => headerWords s
  | .starting => []
  | .journal => []

/-- A write of the sequence completes: its word is in memory. A report not composed at its take-up is composed before its
first word is written (R178). -/
def writeDone (q : Sequence) (s : State) : State :=
  let words := q.out.getD (composeWords q s)
  let q1 := { q with out := some words, written := q.written + 1 }
  putSequence { q1 with stage := if q1.written < words.length then .writing else .writeDone }
    { s with mem := s.mem.writeWord (writeAddress s.jnl q q.written) (words.getD q.written 0) }

/-- TRANSFER_DONE: the sequence goes on to its next transfer, and the count of boundaries restarts (R218). -/
def execTransferDone (data : Word) (s : State) : Host.Outcome State Fault Refusal :=
  match s.arc.inFlight with
  | some q =>
    let s1 := { s with arc := { s.arc with busWait := 0 } }
    whenDue (s.working && q.transferring) s
      (if q.stage = .writing then writeDone q s1 else readDone data q s1)
  | none => .next s

/-- BUS_ERROR: BUSERR_N fails the transfer in progress, whether XFERDONE_N is asserted with it or not (R218). DESIGN CHOICE
(assumption log 23): the word of a write so abandoned does not reach mem; R199 leaves open what the bus did with it. -/
def execBusError (_withDone : Bool) (s : State) : Host.Outcome State Fault Refusal :=
  match s.arc.inFlight with
  | some q => whenDue (s.working && q.transferring) s (portFault .busError s)
  | none => .next s

/-- BUS_TIMEOUT: two tick boundaries have passed while the port waits on the bus (R218). -/
def execBusTimeout (s : State) : Host.Outcome State Fault Refusal :=
  whenDue (s.working && s.arc.onBus && decide (2 ≤ s.arc.busWait)) s (portFault .busTimeout s)

/-! ## LINE_TAKE_UP (R164 to R176) -/

/-- The line with its profile step's outcome recorded and no pending profile (R166, R171). -/
def Line.refuse (edition : Byte) (o : ProfileOutcome) (l : Line) : Line :=
  { l with profileEdition := some edition, profileOutcome := o, pendingProfile := none }

/-- A good profile at a take-up: adopted at once outside a call, held pending otherwise (R172). A comparison of R10 or R12
already made stands; the next is made against the new persistence, after the next sample (R14). -/
def Line.takeProfile (edition : Byte) (p : Profile) (l : Line) : Line :=
  let l1 := { l with profileEdition := some edition }
  if l.main.inCall ∨ l.main = .seizing then { l1 with pendingProfile := some p, profileOutcome := .deferred }
  else l1.adopt p

/-- The line after its profile is checked (R166 to R172). -/
def Line.profileTaken (edition : Byte) (ws : List Word) (l : Line) : Line :=
  match checkProfile ws with
  | .badCheck => l.refuse edition .rejectedCheck
  | .badField f => l.refuse edition (.rejectedField f)
  | .good p => l.takeProfile edition p

/-- The profile step: nothing when the edition read is the one taken up; otherwise the check, and one PROFILE record
(R166, R173). -/
def profileStep (n : LineNo) (edition : Byte) (ws : List Word) (d : DevTime) (s : State) : State :=
  if (s.line n).profileEdition = some edition then s
  else
    let l := (s.line n).profileTaken edition ws
    handOver (lineRecord n d (.profile edition l.profileOutcome)) (s.setLine n l)

/-- The request step of a take-up, from the descriptor's first two words (R174, R175, R186). -/
def requestStep (n : LineNo) (w0 w1 : Word) (d : DevTime) (s : State) : State :=
  takeRequest n (byteOf w0 1) s (doRequest (byteOf w0 2).toNat (byteOf w0 3).toNat w1 n d s)

/-- A take-up: the profile step, then the request step (R164, R176). -/
def takeUp (n : LineNo) (got : List Word) (d : DevTime) (s : State) : State :=
  requestStep n (got.getD 0 0) (got.getD 1 0) d
    (profileStep n (byteOf (got.getD 0 0) 0) (got.drop 2) d s)

/-- A visit goes on to its writing step, its words composed now or before the first write (R178, R179). -/
def beginWriting (composeNow : Bool) (q : Sequence) (s : State) : State :=
  putSequence { q with
    stage := .writing
    out := if composeNow then some (composeWords q s) else none
    written := 0 } s

/-- LINE_TAKE_UP: the ten reads of a line visit are complete (R164). -/
def execLineTakeUp (composeNow : Bool) (s : State) : Host.Outcome State Fault Refusal :=
  match s.arc.inFlight with
  | some q =>
    (match q.kind with
      | .lineVisit n =>
        whenDue (s.working && q.stage == .readDone) s
          (beginWriting composeNow { q with visitTime := s.now } (takeUp n q.got s.now s))
      | .starting => .next s
      | .headerVisit => .next s
      | .journal => .next s)
  | none => .next s

/-- The sweep position after a completed visit: from 96 back to 0 (R162). -/
def nextSweep (i : Fin 97) : Fin 97 := if i.val < 96 then Fin.ofNat 97 (i.val + 1) else 0

/-- A completed visit: the sweep position advances and the sequence ends (R162, R164, R179). -/
def visitDone (s : State) : State :=
  endSequence { s with arc := { s.arc with sweep := nextSweep s.arc.sweep } }

/-- VISIT_COMPLETE: the last report word has been written (R164). -/
def execVisitComplete (s : State) : Host.Outcome State Fault Refusal :=
  match s.arc.inFlight with
  | some q =>
    (match q.kind with
      | .lineVisit _ => whenDue (s.working && q.stage == .writeDone) s (visitDone s)
      | .starting => .next s
      | .headerVisit => .next s
      | .journal => .next s)
  | none => .next s

/-! ## HEADER_TAKE_UP, PLAN_LOAD_OUTCOME, HEADER_VISIT_COMPLETE (R179 to R183) -/

/-- The release index is in span: in the cyclic run of slots from the held release to the head (R196). -/
def JournalUnit.inSpan (j : JournalUnit) (r : Nat) : Bool :=
  decide (r < j.slots ∧ (r + j.slots - j.heldRelease) % j.slots ≤ (j.head + j.slots - j.heldRelease) % j.slots)

/-- A release index is taken up when it is in span, and ignored otherwise (R196). -/
def JournalUnit.takeRelease (r : Nat) (j : JournalUnit) : JournalUnit :=
  if j.inSpan r then { j with heldRelease := r } else j

/-- A time setting is handed over when its edition is not the one taken up; it replaces any setting pending (R180,
R212). -/
def Clock.takeSetting (edition : Byte) (seconds : Word) (c : Clock) : Clock :=
  if c.timeTakenUp = some edition then c
  else { c with timeTakenUp := some edition, pendingTime := some ⟨seconds, edition⟩ }

/-- The hand-overs of a header take-up, from the five words at offsets 8 to 27: wake count, release index and time
setting. A rollover that is due is taken first (R179, R180, R212). -/
def headerHandOver (got : List Word) (s : State) : State :=
  { s with
    jnl := { s.jnl.takeRelease (field (got.getD 1 0) 0 16) with wakeCount := field (got.getD 0 0) 0 16 }
    clk := s.clk.settle.takeSetting (byteOf (got.getD 3 0) 1) (got.getD 4 0) }

/-- HEADER_TAKE_UP: the five reads of a header visit are complete (R179, R180). -/
def execHeaderTakeUp (composeNow : Bool) (s : State) : Host.Outcome State Fault Refusal :=
  match s.arc.inFlight with
  | some q =>
    let edition := byteOf (q.got.getD 3 0) 0
    let s1 := headerHandOver q.got s
    whenDue (s.working && q.kind == .headerVisit && q.stage == .readDone) s
      (if s.arc.planTakenUp = some edition then beginWriting composeNow q s1
        else putSequence { q with
          stage := .planReading, got := [], planAddress := aligned (q.got.getD 2 0), planEdition := edition } s1)
  | none => .next s

/-- A plan load whose check word is good: the plan swap (R102, R182). -/
def swapPlan (edition : Byte) (got : List Word) (s : State) : State :=
  let table := loadedTable got
  { s with
    plan := ⟨table, some edition, ignoredCount table⟩
    arc := { s.arc with planTakenUp := some edition, loadOutcome := .adopted, loadIgnored := ignoredCount table } }

/-- A plan load whose check word fails: the table, edition and ignored count stay (R102, R182). -/
def rejectPlan (edition : Byte) (s : State) : State :=
  { s with arc := { s.arc with planTakenUp := some edition, loadOutcome := .rejectedCheck, loadIgnored := 0 } }

/-- The outcome of a plan load, with its PLAN record (R182). -/
def planOutcome (edition : Byte) (got : List Word) (s : State) : State :=
  let s1 := if halfSum got = 0 then swapPlan edition got s else rejectPlan edition s
  handOver (partRecord s.now (.plan edition s1.arc.loadOutcome s1.arc.loadIgnored)) s1

/-- PLAN_LOAD_OUTCOME: the last read of a plan load is complete (R182). -/
def execPlanLoadOutcome (composeNow : Bool) (s : State) : Host.Outcome State Fault Refusal :=
  match s.arc.inFlight with
  | some q =>
    whenDue (s.working && q.kind == .headerVisit && q.stage == .planReadDone) s
      (beginWriting composeNow q (planOutcome q.planEdition q.got s))
  | none => .next s

/-- HEADER_VISIT_COMPLETE: the last of the four header words has been written; the sweep position returns to 0 (R179). -/
def execHeaderVisitComplete (s : State) : Host.Outcome State Fault Refusal :=
  match s.arc.inFlight with
  | some q =>
    whenDue (s.working && q.kind == .headerVisit && q.stage == .writeDone) s
      (endSequence { s with arc := { s.arc with sweep := 0 } })
  | none => .next s

/-! ## HEADER_CHECK (R200, R218) -/

/-- A good header: the area base, the journal's geometry and wake count are taken up, the port enters RUNNING with the
sweep at 0, and the journal starts empty at the release index with the publish mark set (R200, R218). -/
def enterRunning (q : Sequence) (s : State) : State :=
  let release := field (q.got.getD 3 0) 0 16
  endSequence
    { s with
      arc := { s.arc with port := .running, base := q.base, sweep := 0 }
      jnl := { s.jnl with
        base := aligned (q.got.getD 1 0)
        slots := journalSlots (field (q.got.getD 0 0) 16 8)
        wakeCount := field (q.got.getD 2 0) 0 16
        head := release
        heldRelease := release
        publish := true
        holdOff := false
        holdOffDue := false } }

/-- HEADER_CHECK: the four STARTING reads are complete; after a HALT nothing is taken up (R215, R218). -/
def execHeaderCheck (s : State) : Host.Outcome State Fault Refusal :=
  match s.arc.inFlight with
  | some q =>
    whenDue (s.working && q.kind == .starting && q.stage == .readDone) s
      (if s.arc.haltTaken then portIdle s
        else if headerGood q.got then enterRunning q s
        else portFault .badHeader s)
  | none => .next s

end Sys2Proof.Machine
end

