-- ==== Sys2Proof/Machine/Journal.lean ====
section
/-! DEFINITION. The Journal Unit's sequences: RELEASE_READ, JOURNAL_COMMIT, HOLD_OFF_CLEAR (R193 to R203). -/

namespace Sys2Proof.Machine

/-- The room for new records: held release − head − 1, modulo N (R197). -/
def JournalUnit.room (j : JournalUnit) : Nat := (j.heldRelease + j.slots - j.head - 1) % j.slots

/-- The unreleased count: head − held release, modulo N (R190). -/
def JournalUnit.unreleased (j : JournalUnit) : Nat := (j.head + j.slots - j.heldRelease) % j.slots

/-- How many records a sequence writes: the least of the room, the staged records and 8 (R195). -/
def JournalUnit.toWrite (j : JournalUnit) : Nat := min (min j.room j.staging.length) Config.recordsPerSequence

/-- The words a journal sequence writes: the records with their sequence numbers, then the new head (R195, R198). -/
def JournalUnit.words (count : Nat) (j : JournalUnit) : List Word :=
  recordsWords j.sequence (j.staging.take count) ++ [pack [((j.head + count) % j.slots, 0, 16)]]

/-- Step 1 of a journal sequence, on a release index read: the span check, the number of records, and the hold-off when
there is no room (R194 to R197). -/
def readRelease (r : Nat) (q : Sequence) (s : State) : State :=
  let j := s.jnl.takeRelease r
  let s1 := { s with jnl := if j.room = 0 then { j with holdOff := true, holdOffDue := false } else j }
  if j.toWrite = 0 ∧ j.publish = false then endSequence s1
  else putSequence { q with stage := .writing, count := j.toWrite, out := some (j.words j.toWrite), written := 0 } s1

/-- RELEASE_READ: the release index read of a journal sequence is complete (R195, R196). -/
def execReleaseRead (s : State) : Host.Outcome State Fault Refusal :=
  match s.arc.inFlight with
  | some q =>
    whenDue (s.working && q.kind == .journal && q.stage == .readDone) s
      (readRelease (field (q.got.getD 0 0) 0 16) q s)
  | none => .next s

/-- The staging FIFO and gap count at a commit of `count` records: they leave the head, and a GAP record is due when
places are freed in a full FIFO with losses counted (R193, R195). -/
def JournalUnit.unstage (count : Nat) (d : DevTime) (j : JournalUnit) : JournalUnit :=
  if 0 < count ∧ Config.stagingRoom ≤ j.staging.length ∧ 0 < j.gap then
    { j with staging := j.staging.drop count ++ [partRecord d (.gap j.gap)], gap := 0 }
  else { j with staging := j.staging.drop count }

/-- The Journal Unit at a commit (R195). -/
def JournalUnit.commit (count : Nat) (d : DevTime) (j : JournalUnit) : JournalUnit :=
  { j.unstage count d with
    head := (j.head + count) % j.slots
    sequence := (j.sequence + count) % 65536
    publish := false }

/-- The effective wake count: no more than N − 1 (R201). -/
def JournalUnit.effectiveWake (j : JournalUnit) : Nat := min j.wakeCount (j.slots - 1)

/-- The JOURNAL test of a commit, on the unit as the commit leaves it (R201). -/
def JournalUnit.wakes (j : JournalUnit) : Bool := decide (0 < j.effectiveWake ∧ j.effectiveWake ≤ j.unreleased)

/-- A record whose publication raises URGENT: EXCEPTION, or BLOCK with reason FAULT (R202). -/
def Record.urgent (r : Record) : Bool :=
  match r.body with
  | .exception .. => true
  | .block .fault => true
  | _ => false

/-- The ATTENTION bits a commit sets (R201, R202). -/
def commitBits (count : Nat) (before after : JournalUnit) : BitVec 4 :=
  (if after.wakes then Attention.journal else 0)
    ||| (if (before.staging.take count).any Record.urgent then Attention.urgent else 0)

/-- JOURNAL_COMMIT: the head write is complete (R195). -/
def execJournalCommit (s : State) : Host.Outcome State Fault Refusal :=
  match s.arc.inFlight with
  | some q =>
    let j := s.jnl.commit q.count s.now
    whenDue (s.working && q.kind == .journal && q.stage == .writeDone) s
      (endSequence (setAttention (commitBits q.count s.jnl j) { s with jnl := j }))
  | none => .next s

/-- HOLD_OFF_CLEAR: the hold-off clears at the tick boundary, and the next request falls then (R194). DESIGN CHOICE
(assumption log 24): the visit that the boundary asks for is already queued, and so is served first (R161). -/
def execHoldOffClear (s : State) : Host.Outcome State Fault Refusal :=
  whenDue (s.working && s.jnl.holdOffDue) s
    (requestJournal { s with jnl := { s.jnl with holdOff := false, holdOffDue := false } })

end Sys2Proof.Machine
end

