-- ==== Sys2Proof/Machine/HostSide.lean ====
section
/-! DEFINITION. What the host and the pins of the system do to the part: CONTROL commands and register writes (R213 to
R217), resets and the start-up hold (R219). -/

namespace Sys2Proof.Machine

/-! ## CONTROL (R215) -/

/-- RUN: in IDLE the port enters STARTING and its sequence begins, the area base read there; ignored elsewhere (R214,
R215, R218). -/
def execRun (s : State) : Host.Outcome State Fault Refusal :=
  whenDue (s.working && s.arc.port == .idle) s
    { s with arc := { s.arc with
        port := .starting
        haltTaken := false
        inFlight := some (Sequence.begin .starting s.regs.areaBase)
        busWait := 0 } }

/-- The port leaves RUNNING for HALTING: queued requests withdrawn, the hold-off cleared; IDLE at once when no sequence is
in flight (R161, R194, R215). -/
def enterHalting (s : State) : State :=
  let s1 := { s with
    arc := { s.arc with port := .halting, queue := [] }
    jnl := { s.jnl with holdOff := false, holdOffDue := false } }
  if s.arc.inFlight.isNone then portIdle s1 else s1

/-- HALT, by port state (R215). -/
def haltPort (s : State) : State :=
  match s.arc.port with
  | .starting => { s with arc := { s.arc with haltTaken := true } }
  | .running => enterHalting s
  | .idle => s
  | .halting => s
  | .faulted => s

/-- HALT (R215). -/
def execHalt (s : State) : Host.Outcome State Fault Refusal := whenDue s.working s (haltPort s)

/-- CLEAR_FAULT: in FAULTED the port returns to IDLE; the fault code and the FAULT bit stay (R215). -/
def execClearFault (s : State) : Host.Outcome State Fault Refusal :=
  whenDue (s.working && s.arc.port == .faulted) s { s with arc := { s.arc with port := .idle } }

/-- A command field of 0 or of 5 to 7 is ignored and leaves no trace (R215). -/
def execIgnoredCommand (_field : BitVec 3) (s : State) : Host.Outcome State Fault Refusal := .next s

/-! ## Register writes (R214, R216, R217) -/

/-- A write of AREA BASE: taken in IDLE, bits 2 to 31 (R214). -/
def execAreaBaseWrite (data : Word) (s : State) : Host.Outcome State Fault Refusal :=
  whenDue (s.working && s.arc.port == .idle) s { s with regs := { s.regs with areaBase := aligned data } }

/-- A write of STATUS: a 1 in bit 7 clears the power-on flag (R216). -/
def execStatusWrite (data : Word) (s : State) : Host.Outcome State Fault Refusal :=
  whenDue s.working s { s with regs := { s.regs with powerOnFlag := s.regs.powerOnFlag && !data.getLsbD 7 } }

/-- A write of ATTENTION: each 1 clears its bit (R217). -/
def execAttentionWrite (data : Word) (s : State) : Host.Outcome State Fault Refusal :=
  whenDue s.working s
    { s with regs := { s.regs with attention := s.regs.attention &&& ~~~(data.setWidth 4) } }

/-! ## Resets (R219) -/

/-- A reset of any kind: every block at its after-reset values; the reset cause its own, the power-on flag as R216 gives.
What the part has written to shared memory stays, and so do the commands that wait outside it and the count that picks the
model's free value. -/
def resetPart (cause : ResetCause) (part : Part) (s : State) : State :=
  { State.reset with
    pending := s.pending
    part := part
    regs := { State.reset.regs with
      resetCause := cause
      powerOnFlag := cause == .powerOn || s.regs.powerOnFlag }
    clk := { State.reset.clk with losses := s.clk.losses }
    mem := s.mem }

/-- POWER_ON: the supply is below its operating range; the reset lasts until it is back (R219). -/
def execPowerOn (s : State) : Host.Outcome State Fault Refusal :=
  .next (resetPart .powerOn ⟨.inReset, true, s.part.resetLow⟩ s)

/-- PIN_RESET: RESET_N low for 64 cycles; a shorter pulse is ignored. The reset lasts until the pin is high (R219). -/
def execPinReset (lowCycles : Nat) (s : State) : Host.Outcome State Fault Refusal :=
  whenDue (decide (Config.resetFilterCycles ≤ lowCycles)) s
    (resetPart .pin ⟨.inReset, s.part.supplyLow, true⟩ s)

/-- SOFT_RESET: a CONTROL write, in any port state; ignored during the start-up hold like every write (R214, R215). -/
def execSoftReset (s : State) : Host.Outcome State Fault Refusal :=
  whenDue s.working s (resetPart .soft ⟨.hold, false, false⟩ s)

/-- A cause of a reset has ended: the start-up hold begins when none is left (R219). -/
def Part.afterCause (p : Part) : Part :=
  if p.phase = .inReset ∧ p.supplyLow = false ∧ p.resetLow = false then { p with phase := .hold } else p

/-- RESET_N returns high: a PIN reset ends (R219). -/
def execResetNReturnsHigh (s : State) : Host.Outcome State Fault Refusal :=
  .next { s with part := { s.part with resetLow := false }.afterCause }

/-- The supply enters its operating range: a POWER_ON reset ends (R219). -/
def execSupplyInOperatingRange (s : State) : Host.Outcome State Fault Refusal :=
  .next { s with part := { s.part with supplyLow := false }.afterCause }

/-- START_UP_HOLD_END: the hold ends with the first tick boundary, frame 0 of the first tick (R204, R219). -/
def execStartUpHoldEnd (s : State) : Host.Outcome State Fault Refusal :=
  whenDue (s.part.phase == .hold) s
    (tickBoundary { s with
      part := { s.part with phase := .working }
      clk := { s.clk with frame := 0, frameAge := 0, spacing := 0 } })

end Sys2Proof.Machine
end

