-- ==== Sys2Proof/Machine/Dispatch.lean ====
section
/-! DEFINITION. exec: one arm for each command, each one direct call of the command's meaning. -/

namespace Sys2Proof.Machine

/-- The effect of a command on everything but the queue of waiting commands. -/
def exec (i : Instr) (s : State) : Host.Outcome State Fault Refusal :=
  match i with
  | .powerOn => Sys2Proof.Machine.execPowerOn s
  | .pinReset lowCycles => Sys2Proof.Machine.execPinReset lowCycles s
  | .startUpHoldEnd => Sys2Proof.Machine.execStartUpHoldEnd s
  | .frameStart => Sys2Proof.Machine.execFrameStart s
  | .timeRollover => Sys2Proof.Machine.execTimeRollover s
  | .xfsEdge cycle => Sys2Proof.Machine.execXfsEdge cycle s
  | .lockHandoverTimeout => Sys2Proof.Machine.execLockHandoverTimeout s
  | .qualifyTimeout => Sys2Proof.Machine.execQualifyTimeout s
  | .filledFrame => Sys2Proof.Machine.execFilledFrame s
  | .dividerWindowClose => Sys2Proof.Machine.execDividerWindowClose s
  | .scanFrameComplete frame => Sys2Proof.Machine.execScanFrameComplete frame s
  | .guardExpiry line => Sys2Proof.Machine.execGuardExpiry line s
  | .interdigitExpiry line => Sys2Proof.Machine.execInterdigitExpiry line s
  | .completionTimerExpiry line => Sys2Proof.Machine.execCompletionTimerExpiry line s
  | .release line => Sys2Proof.Machine.execRelease line s
  | .faultBlock line => Sys2Proof.Machine.execFaultBlock line s
  | .faultReturn line => Sys2Proof.Machine.execFaultReturn line s
  | .burstStart sender => Sys2Proof.Machine.execBurstStart sender s
  | .burstExpiry sender => Sys2Proof.Machine.execBurstExpiry sender s
  | .gapExpiry sender => Sys2Proof.Machine.execGapExpiry sender s
  | .lineSlotReceived channel sample => Sys2Proof.Machine.execLineSlotReceived channel sample s
  | .sequenceStart => Sys2Proof.Machine.execSequenceStart s
  | .transferDone data => Sys2Proof.Machine.execTransferDone data s
  | .lineTakeUp composeNow => Sys2Proof.Machine.execLineTakeUp composeNow s
  | .requestNone line edition => Sys2Proof.Machine.execNone line edition s
  | .inject line edition count keys => Sys2Proof.Machine.execInject line edition count keys s
  | .flush line edition => Sys2Proof.Machine.execFlush line edition s
  | .endNumber line edition => Sys2Proof.Machine.execEndNumber line edition s
  | .resume line edition => Sys2Proof.Machine.execResume line edition s
  | .clearFlags line edition => Sys2Proof.Machine.execClearFlags line edition s
  | .block line edition => Sys2Proof.Machine.execBlock line edition s
  | .unblock line edition => Sys2Proof.Machine.execUnblock line edition s
  | .resetSpeed line edition => Sys2Proof.Machine.execResetSpeed line edition s
  | .unknownRequest line edition code => Sys2Proof.Machine.execUnknownRequest line edition code s
  | .visitComplete => Sys2Proof.Machine.execVisitComplete s
  | .headerTakeUp composeNow => Sys2Proof.Machine.execHeaderTakeUp composeNow s
  | .planLoadOutcome composeNow => Sys2Proof.Machine.execPlanLoadOutcome composeNow s
  | .headerVisitComplete => Sys2Proof.Machine.execHeaderVisitComplete s
  | .headerCheck => Sys2Proof.Machine.execHeaderCheck s
  | .releaseRead => Sys2Proof.Machine.execReleaseRead s
  | .journalCommit => Sys2Proof.Machine.execJournalCommit s
  | .holdOffClear => Sys2Proof.Machine.execHoldOffClear s
  | .busError withDone => Sys2Proof.Machine.execBusError withDone s
  | .busTimeout => Sys2Proof.Machine.execBusTimeout s
  | .run => Sys2Proof.Machine.execRun s
  | .halt => Sys2Proof.Machine.execHalt s
  | .clearFault => Sys2Proof.Machine.execClearFault s
  | .softReset => Sys2Proof.Machine.execSoftReset s
  | .ignoredCommand field => Sys2Proof.Machine.execIgnoredCommand field s
  | .areaBaseWrite data => Sys2Proof.Machine.execAreaBaseWrite data s
  | .statusWrite data => Sys2Proof.Machine.execStatusWrite data s
  | .attentionWrite data => Sys2Proof.Machine.execAttentionWrite data s
  | .busGrant => Sys2Proof.Machine.execBusGrant s
  | .resetNReturnsHigh => Sys2Proof.Machine.execResetNReturnsHigh s
  | .supplyInOperatingRange => Sys2Proof.Machine.execSupplyInOperatingRange s

end Sys2Proof.Machine
end

