-- ==== Sys2Proof/Safety.lean ====
section
/-! DEFINITION. The terms claims use: the laws that the spec says hold after every step (a state that meets them all is
safe), and the frames by which a claim says what a step leaves as it was. -/

namespace Sys2Proof.Machine

/-! ## Frames -/

/-- The blocks that no event of a line, and no event of a sender, reaches: the queue of commands, the reset state, the
registers, the Scan Port, the Plan Matcher, the Highway Interface, the clock and shared memory. -/
def OtherBlocksSame (s t : State) : Prop :=
  t.pending = s.pending ∧ t.part = s.part ∧ t.regs = s.regs ∧ t.scan = s.scan ∧ t.plan = s.plan ∧ t.hwy = s.hwy
    ∧ t.clk = s.clk ∧ t.mem = s.mem

/-- Every line record but that of line n is as it was. -/
def OtherLinesSame (n : LineNo) (s t : State) : Prop := ∀ m, m ≠ n → t.line m = s.line m

/-- Line record l' is l in every field but the attached-sender field, which the arbiter sets (R131). -/
def SameButSender (l l' : Line) : Prop := l' = { l with attached := l'.attached }

/-- Every line record but that of line n is as it was, but for the attached-sender fields that grants set. -/
def OtherLinesSameButSenders (n : LineNo) (s t : State) : Prop := ∀ m, m ≠ n → SameButSender (s.line m) (t.line m)

/-- The Journal Unit has taken the records in order, each into staging or into the gap count (R192), and nothing else of
it has changed; the Area Controller is as it was, but that a first record may bring a journal request (R194). -/
def Recorded (rs : List Record) (s t : State) : Prop :=
  t.jnl = rs.foldl JournalUnit.stage s.jnl
    ∧ t.arc = if rs ≠ [] ∧ s.arc.port = .running ∧ PortRequest.journal ∉ s.arc.queue ∧ s.arc.journalling = false
          ∧ s.jnl.holdOff = false
        then { s.arc with queue := s.arc.queue ++ [.journal] } else s.arc

/-- Device time one tick on: at tick 1999 the next is tick 0 of the next second, or of a pending setting's second (R211,
R212). -/
def DevTime.next (pending : Option TimeSetting) (d : DevTime) : DevTime :=
  if d.tick < 1999 then ⟨d.seconds, d.tick + 1⟩
  else match pending with
    | some p => ⟨p.seconds, 0⟩
    | none => ⟨d.seconds + 1, 0⟩

/-- What a tick boundary does to the blocks it paces: device time goes on by one tick, a scan frame is strobed or owed,
the completion timers and the burst and gap timers count one, a burst that waits falls due, the hold-off falls due, the
bus wait counts, and a visit is requested unless one is queued or in flight (R1, R2, R98, R133, R134, R162, R194, R204,
R211, R218). -/
def TickTaken (s t : State) : Prop :=
  t.now = s.now.next s.clk.settle.pendingTime
    ∧ (if s.scan.shifting then t.scan = { s.scan with owed := s.scan.owed + 1, tickSampled := false }
        else t.scan = { s.scan with shifting := true, strobedAt := t.now, tickSampled := false })
    ∧ (∀ n, t.line n = { s.line n with completionTimer := (s.line n).completionTimer.map (· + 1) })
    ∧ (∀ k, t.sender k = { s.sender k with
          timer := if ((s.sender k).state = .on ∧ (s.sender k).begun = true) ∨ (s.sender k).state = .gap
            then min ((s.sender k).timer + 1) 31744 else (s.sender k).timer
          burstDue := (s.sender k).burstDue || ((s.sender k).state == .on && !(s.sender k).begun) })
    ∧ t.pool.waitList = s.pool.waitList ∧ t.pool.joins = s.pool.joins
    ∧ t.jnl = { s.jnl with holdOffDue := s.jnl.holdOff }
    ∧ t.arc = { s.arc with
          busWait := if s.arc.onBus then s.arc.busWait + 1 else s.arc.busWait
          queue := if s.arc.port = .running ∧ PortRequest.visit ∉ s.arc.queue ∧ s.arc.visiting = false
            then s.arc.queue ++ [.visit] else s.arc.queue }

/-- The cycles of the frame just ended join the divider window, and the boundary of frame 0 counts a tick: the 256th fills the
window, whose count is then kept, and opens a new one (R210). -/
def WindowCounted (cycles : Nat) (s t : State) : Prop :=
  ((s.clk.frame + 1) % 4 ≠ 0 ∨ s.clk.window = none →
      t.clk.window = (s.clk.window.map fun w => { w with cycles := w.cycles + cycles })
        ∧ t.clk.windowDone = s.clk.windowDone)
    ∧ ((s.clk.frame + 1) % 4 = 0 → ∀ w, s.clk.window = some w →
      (w.ticks < 255 → t.clk.window = some ⟨w.ticks + 1, w.cycles + cycles⟩ ∧ t.clk.windowDone = s.clk.windowDone)
        ∧ (255 ≤ w.ticks → t.clk.window = some ⟨0, 0⟩ ∧ t.clk.windowDone = some (w.cycles + cycles)))

/-- The line records, the Sender Pool, the Scan Port, the Journal Unit, the Area Controller and the Plan Matcher are as
they were: what a frame that is no tick boundary leaves. -/
def TickBlocksSame (s t : State) : Prop :=
  t.lines = s.lines ∧ t.pool = s.pool ∧ t.scan = s.scan ∧ t.jnl = s.jnl ∧ t.arc = s.arc

/-- A sender is in a burst that has not reached T_on of its line's profile (R134, R150). -/
def Sounds (s : State) (x : Sender) : Prop :=
  x.state = .on ∧ x.begun = true ∧ ∃ n p, x.line = some n ∧ (s.line n).adopted = some p ∧ x.timer < p.tOn

/-- A driven frame composed in state s: each slot carries its channel's output sample, then each burst's phase accumulators
advance by its key's increments and all others stand still (R145, R150, R152); the rest is as a frame that is not driven
leaves it. -/
def DrivenSame (s t : State) : Prop :=
  t.lines = s.lines ∧ t.scan = s.scan ∧ t.jnl = s.jnl ∧ t.arc = s.arc ∧ t.now = s.now
    ∧ t.pool.waitList = s.pool.waitList ∧ t.pool.joins = s.pool.joins
    ∧ (∀ n : LineNo, t.hwy.xtxd[n] = some (outputSample s n))
    ∧ ∀ k, let x := s.sender k
        (∀ key, Sounds s x → x.key = some key → t.sender k = { x with
          accLow := x.accLow + lowIncrement key, accHigh := x.accHigh + highIncrement key })
        ∧ (¬ Sounds s x ∨ x.key = none → t.sender k = x)

/-- A sender attached to a line other than n is as it was: grants reach FREE senders alone (R130). -/
def OtherSendersKept (n : LineNo) (s t : State) : Prop :=
  ∀ k, (s.sender k).state ≠ .free → (s.line n).attached ≠ some k → t.sender k = s.sender k

/-- Nothing but sender k and what XTXD carries has changed: no other block, no other sender, no wait list, no record. -/
def OtherSame (k : SenderNo) (s t : State) : Prop :=
  t.pending = s.pending ∧ t.part = s.part ∧ t.regs = s.regs ∧ t.scan = s.scan ∧ t.plan = s.plan ∧ t.clk = s.clk
    ∧ t.mem = s.mem ∧ t.jnl = s.jnl ∧ t.arc = s.arc ∧ t.hwy.delay = s.hwy.delay ∧ t.hwy.slot = s.hwy.slot
    ∧ t.hwy.delayed = s.hwy.delayed
    ∧ t.pool.waitList = s.pool.waitList ∧ t.pool.joins = s.pool.joins ∧ ∀ j, j ≠ k → t.sender j = s.sender j

/-- The part is at its after-reset values; what the part has written to shared memory stays, and so do the commands that
wait outside it and the count of losses that picks the model's free value (R16, R38, R157, R205, R216, R219). -/
def AfterReset (cause : ResetCause) (s t : State) : Prop :=
  t.pending = s.pending ∧ t.mem = s.mem ∧ t.scan = State.reset.scan ∧ t.lines = State.reset.lines
    ∧ t.plan = State.reset.plan ∧ t.pool = State.reset.pool ∧ t.hwy = State.reset.hwy ∧ t.arc = State.reset.arc
    ∧ t.jnl = State.reset.jnl
    ∧ t.clk = { State.reset.clk with losses := s.clk.losses }
    ∧ t.regs.areaBase = 0 ∧ t.regs.resetCause = cause ∧ t.regs.faultCode = .none ∧ t.regs.attention = 0
    ∧ t.regs.powerOnFlag = (if cause = .powerOn then true else s.regs.powerOnFlag)

/-- Every line but line n is OUT_OF_SERVICE, so that no other line makes a record of a scan frame (R3). -/
def OnlyLine (n : LineNo) (s : State) : Prop := ∀ m, m ≠ n → (s.line m).main = .outOfService

/-- A word holds its fields, each given as value, low bit and width, and 0 in every bit of no field (R184). -/
def Holds (w : Word) (fields : List (Nat × Nat × Nat)) : Prop :=
  (∀ f ∈ fields, w.toNat / 2 ^ f.2.1 % 2 ^ f.2.2 = f.1)
    ∧ ∀ i : Nat, i < 32 → (∀ f ∈ fields, i < f.2.1 ∨ f.2.1 + f.2.2 ≤ i) → w.getLsbD i = false

/-! ## What a line carries under PASS and MUTE -/

/-- The conditions of MUTE on a line with no attached sender (R147, R149). -/
abbrev Muted (p : Profile) (l : Line) : Prop :=
  p.muteEnable = true ∧ (((l.main = .collecting ∨ l.main = .through) ∧ l.sub ≠ .idle)
    ∨ (l.main = .collecting ∧ p.sendingMode = .enBloc ∧ l.digits ≠ []) ∨ l.main = .suspended)

/-! ## Commands one after another -/

/-- The commands, taken one after another, lead from state s to state t. -/
def Taken : List Instr → State → State → Prop
  | [], s, t => t = s
  | c :: rest, s, t => ∃ u, exec c s = .next u ∧ Taken rest u t

/-! ## Commands that fall on one line -/

/-- The line a line command falls on: the six expiries and the ten request rows. -/
def lineOf : Instr → Option LineNo
  | .guardExpiry n | .interdigitExpiry n | .completionTimerExpiry n | .release n | .faultBlock n | .faultReturn n => some n
  | .requestNone n _ | .inject n _ _ _ | .flush n _ | .endNumber n _ | .resume n _ => some n
  | .clearFlags n _ | .block n _ | .unblock n _ | .resetSpeed n _ | .unknownRequest n _ _ => some n
  | _ => none

/-- A command that is a reset of the part, whatever its operand (R219). -/
def isReset : Instr → Bool
  | .powerOn => true
  | .pinReset _ => true
  | .softReset => true
  | _ => false

/-! ## Line records after the larger events -/

/-- The train fields at their idle values (R18, R40). -/
def trainIdle (l : Line) : Line :=
  { l with sub := .idle, pulses := 0, pulseBreak := 0, reopened := false, threshold := none }

/-- A line suspended by a trapped set (R27). -/
def suspendedLine (target : ResumeTarget) (l : Line) : Line :=
  { trainIdle l with main := .suspended, resumeTarget := some target, completionTimer := none }

/-- A line after the release effects, on its way to a main state (R23). -/
def releasedLine (m : MainState) (l : Line) : Line :=
  { trainIdle l with
    main := m, digits := [], completionTimer := none, cls := .normal, resumeTarget := none, store := [], attached := none }

/-- A line after an event's condition set has been evaluated: its members join the cause flags when the event has a train;
an untrapped set joins the sticky flags, a trapped one suspends the line (R27, R85 to R88). -/
def afterSet (p : Profile) (train : Bool) (set : CondSet) (l : Line) : Line :=
  let l1 := { l with causes := if train then l.causes ||| set else l.causes }
  if set &&& p.trapMask = 0 then { l1 with sticky := l.sticky ||| set }
  else suspendedLine (if l.main = .through then .through else .collecting) l1

/-- The record of an event's condition set: EXCEPTION when it is trapped (R88, R89). -/
def setRecords (n : LineNo) (d : DevTime) (p : Profile) (set : CondSet) (main : MainState) : List Record :=
  if set &&& p.trapMask = 0 then [] else [⟨some n, d, .exception (set &&& p.trapMask) main⟩]

/-- A line after a restart of its loop conditioning (R13, R41). -/
def restartedLine (l : Line) : Line :=
  { l with integrator := 0, loop := .opened, phaseTimer := 0, faultRun := 0, clearRun := 0, marginalRaised := false
           intervalTimer := 0, heldMake := 0, runTestMet := false, skipSamples := 0 }

/-- A line after a pending profile, if it holds one, is adopted (R35). -/
def pendingAdopted (l : Line) : Line :=
  match l.pendingProfile with
  | some p => l.adopt p
  | none => l

/-- The PROFILE record of a pending adoption (R35, R173). -/
def pendingRecords (n : LineNo) (d : DevTime) (l : Line) : List Record :=
  match l.pendingProfile with
  | some _ => [⟨some n, d, .profile (l.profileEdition.getD 0) .adopted⟩]
  | none => []

/-- The SEND_DONE record of a sender cut by the release effects (R139, R142). -/
def cutRecord (n : LineNo) (d : DevTime) (s : State) : List Record :=
  match (s.line n).attached with
  | some k => [⟨some n, d, .sendDone k (s.sender k).keysSent .cut⟩]
  | none => []

/-- The keys a completion offers: the call digits of an en-bloc line, then the end key when the selected entry asks for it
(R112, R113). -/
def numberKeys (p : Profile) (ev : Evaluation) (l : Line) : List StoredKey :=
  (if p.sendingMode = .enBloc then l.digits.map (fun k => ⟨k, .dialled⟩) else [])
    ++ (if (ev.selected.map (·.2.endKey)) = some true then [⟨p.endKey, .endKey⟩] else [])

/-- The condition set of a completion (R91, R114). -/
def numberSet (p : Profile) (o : NumberOutcome) (ev : Evaluation) (l : Line) : CondSet :=
  (if o = .unmatched then 0x100 else 0) ||| (if o = .full then 0x080 else 0)
    ||| (if 32 < l.store.length + (numberKeys p ev l).length then 0x040 else 0)

/-- The class after an evaluation (R105). -/
def raisedClass (ev : Evaluation) (l : Line) : LineClass :=
  if (ev.selected.map (·.2.cls)) = some .urgent then .urgent else l.cls

/-- A line whose number has completed, but for its attached-sender field (R25, R27, R91, R105, R111). -/
def numberLine (p : Profile) (o : NumberOutcome) (ev : Evaluation) (l : Line) : Line :=
  let l1 := { l with
    main := .through, digits := [], completionTimer := none, cls := raisedClass ev l
    store := l.store ++ (numberKeys p ev l).take (32 - l.store.length) }
  if numberSet p o ev l &&& p.trapMask = 0 then { l1 with sticky := l.sticky ||| numberSet p o ev l }
  else suspendedLine .through l1

/-- The records of a completion: NUMBER, and EXCEPTION when its set is trapped (R89, R111). -/
def numberRecords (n : LineNo) (p : Profile) (o : NumberOutcome) (ev : Evaluation) (d : DevTime) (l : Line) :
    List Record :=
  ⟨some n, d, .number o l.digits.length (ev.selected.map (·.1)) (raisedClass ev l) (numberSet p o ev l)⟩
    :: (if numberSet p o ev l &&& p.trapMask = 0 then []
        else [⟨some n, d, .exception (numberSet p o ev l &&& p.trapMask) .collecting⟩])

/-! ## The laws of the buffers (R97, R120, R192) -/

/-- Staging, gap count, key stores and call digits lie within their bounds; the gap count is nonzero only while staging
is full. -/
def BufferLaws (s : State) : Prop :=
  s.jnl.staging.length ≤ 32 ∧ s.jnl.gap ≤ 65535 ∧ (s.jnl.gap ≠ 0 → s.jnl.staging.length = 32)
    ∧ ∀ n, (s.line n).store.length ≤ 32 ∧ (s.line n).digits.length < 24

/-! ## The laws of the port (R159, R161, R213, R214, R218) -/

/-- The queue holds at most one visit and one journal request, neither beside a sequence of its kind in flight; requests
wait only in RUNNING; a sequence is in flight only in STARTING, RUNNING and HALTING, the STARTING sequence exactly in
STARTING. -/
def PortLaws (s : State) : Prop :=
  s.arc.queue.count .visit ≤ 1 ∧ s.arc.queue.count .journal ≤ 1
    ∧ (s.arc.visiting = true → PortRequest.visit ∉ s.arc.queue)
    ∧ (s.arc.journalling = true → PortRequest.journal ∉ s.arc.queue)
    ∧ (s.arc.port ≠ .running → s.arc.queue = [])
    ∧ (s.arc.port = .idle ∨ s.arc.port = .faulted → s.arc.inFlight = none)
    ∧ (s.arc.port = .starting ∨ s.arc.port = .halting → s.arc.inFlight ≠ none)
    ∧ ∀ q, s.arc.inFlight = some q → (q.kind = .starting ↔ s.arc.port = .starting)

/-- Every base address the part forms its addresses from lies on a four-byte boundary. -/
def AlignmentLaws (s : State) : Prop :=
  s.regs.areaBase.toNat % 4 = 0 ∧ s.arc.base.toNat % 4 = 0 ∧ s.jnl.base.toNat % 4 = 0
    ∧ ∀ q, s.arc.inFlight = some q → q.base.toNat % 4 = 0 ∧ q.planAddress.toNat % 4 = 0

/-! ## The laws of a train (R18, R40, R44, R54, R55) -/

/-- A train is in progress only in COLLECTING and THROUGH; with none the train fields are at their idle values; with one
the count is 1 to 15, a make has its threshold, and a break has one unless it is reopened. -/
def TrainLaws (s : State) : Prop :=
  ∀ n, let l := s.line n
    (l.sub ≠ .idle → l.main = .collecting ∨ l.main = .through)
      ∧ (l.sub = .idle → l.pulses = 0 ∧ l.pulseBreak = 0 ∧ l.reopened = false ∧ l.threshold = none)
      ∧ (l.sub ≠ .idle → 1 ≤ l.pulses ∧ l.pulses ≤ 15)
      ∧ (l.sub = .make → l.reopened = false ∧ l.threshold ≠ none)
      ∧ (l.sub = .brk → (l.reopened = true ↔ l.threshold = none))

/-! ## The laws of profiles (R4, R17, R66, R74, R165, R169, R170) -/

/-- What every adopted or pending profile satisfies. -/
def ProfileSound (p : Profile) : Prop :=
  p.bMin ≤ p.bMax ∧ p.bMax < p.rel ∧ (p.fMax ≠ 0 → p.bMax < p.fMax ∧ p.fMax < p.rel)
    ∧ 1 ≤ p.pLo ∧ p.pLo ≤ p.pNom ∧ p.pNom ≤ p.pHi ∧ p.pHi ≤ 31744
    ∧ p.tidMin ≤ p.tidMax ∧ p.tidMax ≤ 31744 ∧ 1 ≤ p.tOn ∧ p.tOn ≤ 31744 ∧ p.tOff ≤ 31744
    ∧ p.ratioLo ≤ p.ratioHi ∧ p.ratioHi ≤ 100
    ∧ 1 ≤ p.depth ∧ p.depth ≤ 8 ∧ 1 ≤ p.gain ∧ p.gain ≤ 4 ∧ 8 ≤ p.multiplier ∧ p.multiplier ≤ 63
    ∧ p.aLow ≤ 32767 ∧ p.aHigh ≤ 32767

/-- A line without an adopted profile is OUT_OF_SERVICE with integrator and estimate 0; under an adopted profile both lie
within its limits; a pending profile is held only in SEIZING and in a call, exactly while the outcome is DEFERRED. -/
def ProfileLaws (s : State) : Prop :=
  ∀ n, let l := s.line n
    (l.adopted = none → l.main = .outOfService ∧ l.integrator = 0 ∧ l.estimate = 0)
      ∧ (∀ p, l.adopted = some p →
          ProfileSound p ∧ l.integrator ≤ p.depth ∧ 16 * p.pLo ≤ l.estimate ∧ l.estimate ≤ 16 * p.pHi)
      ∧ (∀ p, l.pendingProfile = some p → ProfileSound p ∧ (l.main = .seizing ∨ l.main.inCall = true))
      ∧ (l.pendingProfile ≠ none ↔ l.profileOutcome = .deferred)

/-! ## The laws of calls, senders and the wait list (R17, R19, R98, R126, R130) -/

/-- Outside a call a line has no keys, no call digits, no sender and class NORMAL; the completion timer runs only in
COLLECTING over call digits; the resume target is set exactly in SUSPENDED. -/
def CallLaws (s : State) : Prop :=
  ∀ n, let l := s.line n
    (l.main.inCall = false → l.store = [] ∧ l.digits = [] ∧ l.attached = none ∧ l.cls = .normal)
      ∧ (l.completionTimer ≠ none → l.main = .collecting ∧ l.digits ≠ [])
      ∧ (l.resumeTarget ≠ none ↔ l.main = .suspended)
      ∧ (l.digits ≠ [] → l.main = .collecting ∨ l.resumeTarget = some .collecting)

/-- Senders and lines are attached one to one, a sender is FREE exactly when it has no line; the wait list names each line
at most once, in the order of class and joining time, and only lines in COLLECTING or THROUGH with keys and no sender. -/
def PoolLaws (s : State) : Prop :=
  (∀ n k, (s.line n).attached = some k ↔ (s.sender k).line = some n)
    ∧ (∀ k, (s.sender k).state = .free ↔ (s.sender k).line = none)
    ∧ (s.pool.waitList.map (·.line)).Nodup ∧ (s.pool.waitList.map (·.joined)).Nodup
    ∧ (∀ e ∈ s.pool.waitList, ((s.line e.line).main = .collecting ∨ (s.line e.line).main = .through)
        ∧ (s.line e.line).store ≠ [] ∧ (s.line e.line).attached = none ∧ e.joined < s.pool.joins)
    ∧ s.pool.waitList.Pairwise fun a b =>
        ((s.line a.line).cls = .urgent ∧ (s.line b.line).cls = .normal)
          ∨ ((s.line a.line).cls = (s.line b.line).cls ∧ a.joined < b.joined)

/-- Every line in COLLECTING or THROUGH with keys and no sender is in the wait list (R29, R121, R127). -/
def WaitLaw (s : State) : Prop :=
  ∀ n, (s.line n).main = .collecting ∨ (s.line n).main = .through → (s.line n).store ≠ [] → (s.line n).attached = none →
    ∃ e ∈ s.pool.waitList, e.line = n

/-- No sender is FREE while a line waits (R130). -/
def ArbiterLaw (s : State) : Prop := (∀ k, (s.sender k).state ≠ .free) ∨ s.pool.waitList = []

/-! ## The Sender Pool after an event -/

/-- Sender k stands freshly granted to line m: no key sent, no mark set, its burst not begun; ON in LOCKED, where a grant at
a tick boundary has the burst begin at that boundary, and PAUSED otherwise (R131). -/
def Granted (atBoundary : Bool) (k : SenderNo) (m : LineNo) (t : State) : Prop :=
  (t.line m).attached = some k ∧ (t.sender k).line = some m ∧ (t.sender k).keysSent = 0
    ∧ (t.sender k).flushMark = false ∧ (t.sender k).resendMark = false ∧ (t.sender k).begun = false
    ∧ (t.sender k).state = (if t.clk.state = .locked then .on else .paused)
    ∧ (t.sender k).burstDue = (atBoundary && t.clk.state == .locked)

/-- Sender k, which an event frees from line n, goes to the head of the wait list, which leaves the list, the others keeping
their places; with no line waiting it stays FREE (R128, R130, R131). -/
def FreedGoesOn (atBoundary : Bool) (k : SenderNo) (n : LineNo) (s t : State) : Prop :=
  PoolLaws s → ArbiterLaw s → (s.line n).attached = some k →
    t.pool.joins = s.pool.joins ∧ (∀ j, j ≠ k → t.sender j = s.sender j)
      ∧ match s.pool.waitList with
        | [] => (t.sender k).state = .free ∧ (t.sender k).line = none ∧ t.pool.waitList = [] ∧ OtherLinesSame n s t
        | e :: rest => Granted atBoundary k e.line t ∧ t.pool.waitList = rest
            ∧ SameButSender (s.line e.line) (t.line e.line) ∧ ∀ m, m ≠ n → m ≠ e.line → t.line m = s.line m

/-- Line n waits and goes on waiting. With its class as it was, so is the Sender Pool; raised to URGENT, its entry keeps its
joining time and stands at the place that time gives among the URGENT entries, the others keeping their order (R105, R127,
R129). -/
def GoesOnWaiting (n : LineNo) (s t : State) : Prop :=
  ∀ e ∈ s.pool.waitList, e.line = n →
    (t.line n).attached = none ∧ OtherLinesSame n s t
      ∧ ((t.line n).cls = (s.line n).cls → t.pool = s.pool)
      ∧ ((t.line n).cls ≠ (s.line n).cls →
        ∃ before after, t.pool = { s.pool with waitList := before ++ e :: after }
          ∧ before ++ after = s.pool.waitList.filter (fun f => f.line != n)
          ∧ (∀ f ∈ before, (s.line f.line).cls = .urgent ∧ f.joined < e.joined)
          ∧ ∀ f ∈ after, (s.line f.line).cls = .normal ∨ e.joined < f.joined)

/-- Line n neither waits nor holds a sender. With no key it stays so; with keys it is granted the lowest-numbered FREE
sender, or, with none FREE, joins at the tail of the entries of its class (R127, R130, R131). -/
def JoinsWithKeys (n : LineNo) (s t : State) : Prop :=
  (∀ e ∈ s.pool.waitList, e.line ≠ n) → (s.line n).attached = none →
    OtherLinesSame n s t
      ∧ ((t.line n).store = [] → t.pool = s.pool ∧ (t.line n).attached = none)
      ∧ ((t.line n).store ≠ [] → ∀ k, (s.sender k).state = .free → (∀ j, j < k → (s.sender j).state ≠ .free) →
          Granted false k n t ∧ t.pool.waitList = [] ∧ ∀ j, j ≠ k → t.sender j = s.sender j)
      ∧ ((t.line n).store ≠ [] → (∀ k, (s.sender k).state ≠ .free) →
          (t.line n).attached = none ∧ (∀ k, t.sender k = s.sender k)
            ∧ ∃ before after, t.pool.waitList = before ++ ⟨n, s.pool.joins⟩ :: after
              ∧ before ++ after = s.pool.waitList
              ∧ (∀ f ∈ before, (s.line f.line).cls = .urgent ∨ (t.line n).cls = .normal)
              ∧ ∀ f ∈ after, (s.line f.line).cls = .normal ∧ (t.line n).cls = .urgent)

/-- What becomes of line n's place in the Sender Pool by an event that leaves it in COLLECTING or THROUGH and takes no key
away: a sender it holds stays its own, an entry it has stays, and otherwise it joins when it has keys (R127, R137). -/
def PoolFollows (n : LineNo) (s t : State) : Prop :=
  PoolLaws s → ArbiterLaw s →
    (∀ k, (s.line n).attached = some k → t.pool = s.pool ∧ (t.line n).attached = some k ∧ OtherLinesSame n s t)
      ∧ GoesOnWaiting n s t ∧ JoinsWithKeys n s t

/-- Line n has left the wait list, and the Sender Pool is otherwise as it was (R128). -/
def LeavesTheList (n : LineNo) (s t : State) : Prop :=
  t.pool = { s.pool with waitList := s.pool.waitList.filter fun e => e.line != n }

/-- The Sender Pool after an event that raises a set and offers no key: a trapped set takes the line out of the wait list,
and otherwise nothing of the pool has changed (R27, R127, R128). -/
def ListAfterSet (p : Profile) (set : CondSet) (n : LineNo) (s t : State) : Prop :=
  if set &&& p.trapMask = 0 then t.pool = s.pool else LeavesTheList n s t

/-! ## The laws of the clock (R204 to R211) -/

/-- The clock's counts lie in their ranges, a clock that has not locked since the reset (one in FREE among them) has the
nominal divider, the lock is due only in QUALIFYING with the count full, and a divider window is open only in LOCKED. The
model's readings: the lock-due mark cleared on entry to LOCKED and the missing count left at 4 by a loss (DEDUCED, assumption
log 14), the rollover mark (DEDUCED, log 7), the kept count of a closed window (DEDUCED, log 13). -/
def ClockLaws (s : State) : Prop :=
  let c := s.clk
  c.frame ≤ 3 ∧ c.tick ≤ 1999 ∧ c.qualCount ≤ 1024 ∧ c.missing ≤ 4 ∧ (c.state = .locked → c.missing ≤ 3)
    ∧ 10036 ≤ c.divider ∧ c.divider ≤ 10444
    ∧ (c.state = .free → c.lockedSince = false) ∧ (c.lockedSince = false → c.divider = 10240)
    ∧ (c.state = .locked → c.lockedSince = true)
    ∧ (c.lockDue = true → c.state = .qualifying ∧ c.qualCount = 1024)
    ∧ (c.window ≠ none → c.state = .locked) ∧ (∀ w, c.window = some w → w.ticks < 256)
    ∧ (c.windowDone ≠ none → c.lockedSince = true)
    ∧ (c.rolloverDue = true → c.tick = 1999)
    ∧ (∀ p, c.pendingTime = some p → c.timeTakenUp = some p.edition)

/-- A sender is ON or in GAP only in LOCKED and PAUSED only outside it; XTXD is driven, in every slot, exactly by a
working part in LOCKED, and only a working part is in LOCKED; every delay line holds 32 samples (R140, R141, R145, R146,
R156, R219). -/
def HighwayLaws (s : State) : Prop :=
  (s.clk.state ≠ .locked → ∀ k, (s.sender k).state = .free ∨ (s.sender k).state = .paused)
    ∧ (s.clk.state = .locked → ∀ k, (s.sender k).state ≠ .paused)
    ∧ (s.part.phase ≠ .working ∨ s.clk.state ≠ .locked → ∀ n : LineNo, s.hwy.xtxd[n] = none)
    ∧ (s.part.phase ≠ .working → s.clk.state ≠ .locked)
    ∧ (s.clk.state = .locked → ∀ n : LineNo, s.hwy.xtxd[n] ≠ none)
    ∧ (∀ n : LineNo, s.hwy.delay[n].length = 32)

/-! ## A safe state -/

/-- Every law at once, and the canonical form of memory. -/
def Safe (s : State) : Prop :=
  BufferLaws s ∧ PortLaws s ∧ AlignmentLaws s ∧ TrainLaws s ∧ ProfileLaws s ∧ CallLaws s ∧ PoolLaws s ∧ WaitLaw s ∧ ArbiterLaw s
    ∧ ClockLaws s ∧ HighwayLaws s ∧ Memory.wf s.mem

end Sys2Proof.Machine
end

