-- ==== Sys2Proof/Certificates/Slice0/Obligations.lean ====
section
/-! DEFINITION. The statements for the provers. Each docstring names the rules it formalises, and says so where it rests
on a choice of the model (an assumption log entry). Every statement is over all states unless its hypotheses say more. -/

open Sys2Proof Sys2Proof.Machine

/-! ## The machine as a whole -/

/-- A step runs the command at the front of the queue with the rest of the queue waiting; on an empty queue the part
idles (the model's choice, assumption log 1). -/
def Obligations.StepTakesFront : Prop :=
  ∀ s : State,
    (∀ (c : Instr) (rest : List Instr), s.pending = c :: rest → step s = exec c { s with pending := rest })
      ∧ (s.pending = [] → step s = .next s)

/-- Every command answers a next state, and leaves the commands that wait behind it (assumption logs 1, 2). -/
def Obligations.EveryCommandCompletes : Prop :=
  ∀ (c : Instr) (s : State), ∃ t, exec c s = .next t ∧ t.pending = s.pending

/-- Shared memory changes at a completed write transfer and at nothing else (R160, R178, R189, R219). An ATTENTION bit
that is set stays set through every command but a host's write of ATTENTION and the resets; a host's write clears
the bits it writes 1 to, and changes no other (R217). That the word of a failed write does not reach memory is the model's
choice (assumption log 23). -/
def Obligations.MemoryAndAttention : Prop :=
  (∀ (c : Instr) (s t : State), exec c s = .next t → t.mem ≠ s.mem →
    (∃ data, c = .transferDone data) ∧ ∃ q, s.arc.inFlight = some q ∧ q.granted = true ∧ q.stage = .writing)
    ∧ (∀ (c : Instr) (s t : State), exec c s = .next t →
    ((∀ data, c ≠ .attentionWrite data) → isReset c = false →
        s.regs.attention &&& t.regs.attention = s.regs.attention)
      ∧ (∀ data, c = .attentionWrite data → t.regs.attention &&& s.regs.attention = t.regs.attention
          ∧ (s.part.phase = .working → ∀ i : Nat, i < 4 →
              t.regs.attention.getLsbD i = (s.regs.attention.getLsbD i && !data.getLsbD i))))

/-- Every change of clock state, but a reset's return to FREE, hands a CLOCK record to staging, dated to the tick in
which it falls, and sets the CLOCK bit; LOCKED is left for HOLDOVER alone (R209). No other record is handed over with it,
but for the SEND_DONE records of gap expiries taken before a loss on the same boundary, which stand before it (R140, R142,
R192; assumption log 11). -/
def Obligations.ClockChangesAreRecorded : Prop :=
  ∀ (c : Instr) (s t : State), exec c s = .next t → isReset c = false → t.clk.state ≠ s.clk.state →
    (∃ first : List Record,
        let staged := (first ++ [(⟨none, t.now, .clock t.clk.state⟩ : Record)]).foldl JournalUnit.stage s.jnl
        t.jnl.staging = staged.staging ∧ t.jnl.gap = staged.gap
          ∧ (first ≠ [] → c = .filledFrame ∧ (s.clk.frame + 1) % 4 = 0)
          ∧ ∀ r ∈ first, ∃ n k sent reason, r = ⟨some n, t.now, .sendDone k sent reason⟩ ∧ reason ≠ .cut)
      ∧ t.regs = { s.regs with attention := s.regs.attention ||| 8 }
      ∧ (s.clk.state = .locked → t.clk.state = .holdover)

/-- A command of one line reaches no other block but the Sender Pool and the Journal Unit's staging, no other line's
record but for attached-sender fields set by grants, and no sender of another line; every record it makes is of that
line. -/
def Obligations.LineCommandsKeepTheRest : Prop :=
  ∀ (c : Instr) (n : LineNo) (s t : State), lineOf c = some n → exec c s = .next t →
    OtherBlocksSame s t ∧ OtherLinesSameButSenders n s t ∧ OtherSendersKept n s t
      ∧ ∃ rs, Recorded rs s t ∧ ∀ r ∈ rs, r.line = some n

/-! ## Resets and the start-up hold -/

/-- The three resets: each gives every block its after-reset values; a low pulse of fewer than 64 cycles is ignored; a
SOFT_RESET written outside the working phase is ignored (R214, R219). The model's own here: what overlapping resets keep,
and that a SOFT_RESET written while a reset lasts is ignored as in the hold (assumption log 15); the values no reset
table gives (16); the queue kept (1), and the count that picks the free value of log 11. -/
def Obligations.ResetsOfEachKind : Prop :=
  ∀ s : State,
    (∃ t, exec .powerOn s = .next t ∧ AfterReset .powerOn s t ∧ t.part = ⟨.inReset, true, s.part.resetLow⟩)
      ∧ (∀ cycles, 64 ≤ cycles →
          ∃ t, exec (.pinReset cycles) s = .next t ∧ AfterReset .pin s t ∧ t.part = ⟨.inReset, s.part.supplyLow, true⟩)
      ∧ (∀ cycles, cycles < 64 → exec (.pinReset cycles) s = .next s)
      ∧ (s.part.phase = .working →
          ∃ t, exec .softReset s = .next t ∧ AfterReset .soft s t ∧ t.part = ⟨.hold, false, false⟩)
      ∧ (s.part.phase ≠ .working → exec .softReset s = .next s)

/-- A reset lasts until its cause ends: the start-up hold begins when RESET_N is high and the supply is in range (R219;
two causes at once, assumption log 15). The end of the start-up hold is the first tick boundary: frame 0 of a tick,
the spacing timer starting; outside the hold the step does nothing (R204, R205, R219; that it then
does nothing is the model's choice, assumption log 2). -/
def Obligations.ResetEndsIntoTheHold : Prop :=
  (∀ s : State,
    (∃ t, exec .resetNReturnsHigh s = .next t ∧ t = { s with part := t.part } ∧ t.part.resetLow = false
        ∧ t.part.supplyLow = s.part.supplyLow
        ∧ t.part.phase = (if s.part.phase = .inReset ∧ s.part.supplyLow = false then .hold else s.part.phase))
      ∧ (∃ t, exec .supplyInOperatingRange s = .next t ∧ t = { s with part := t.part } ∧ t.part.supplyLow = false
        ∧ t.part.resetLow = s.part.resetLow
        ∧ t.part.phase = (if s.part.phase = .inReset ∧ s.part.resetLow = false then .hold else s.part.phase)))
    ∧ (∀ s : State,
    (s.part.phase = .hold → ∃ t, exec .startUpHoldEnd s = .next t ∧ t.part = { s.part with phase := .working }
      ∧ t.clk.frame = 0 ∧ t.clk.frameAge = 0 ∧ t.clk.spacing = 0 ∧ t.clk.state = s.clk.state
      ∧ t.clk.divider = s.clk.divider ∧ TickTaken s t
      ∧ t.regs = s.regs ∧ t.plan = s.plan ∧ t.hwy = s.hwy ∧ t.mem = s.mem)
    ∧ (s.part.phase ≠ .hold → exec .startUpHoldEnd s = .next s))

/-- What the spec's reset tables say of State.reset, table by table: the lines (R16, R38, R40, R66, R84, R97, R98, R120,
R165), the plan table (R100), the senders and the wait list (R126, R133), the highway (R157), the port (R161, R162, R182,
R213), the journal (R190), the clock (R205), the registers after POWER_ON (R214, R216, R217), which State.reset follows
(assumption log 1). The state meets every law of Safety.lean, those on the model's own clock marks (logs 7, 13, 14) among
them. -/
def Obligations.ResetState : Prop :=
  (Safe State.reset)
    ∧ (let s := State.reset
  (∀ n, let l := s.line n
      l.integrator = 0 ∧ l.loop = .opened ∧ l.phaseTimer = 0 ∧ l.faultRun = 0 ∧ l.clearRun = 0 ∧ l.marginalRaised = false
      ∧ l.main = .outOfService ∧ l.sub = .idle ∧ l.resumeTarget = none ∧ l.cls = .normal ∧ l.adopted = none
      ∧ l.pendingProfile = none ∧ l.intervalTimer = 0 ∧ l.heldMake = 0 ∧ l.pulses = 0 ∧ l.pulseBreak = 0
      ∧ l.reopened = false ∧ l.threshold = none ∧ l.estimate = 0 ∧ l.causes = 0 ∧ l.sticky = 0 ∧ l.lastCauses = 0
      ∧ l.digits = [] ∧ l.completionTimer = none ∧ l.store = [] ∧ l.attached = none ∧ l.profileEdition = none
      ∧ l.profileOutcome = .adopted ∧ l.adoptedEdition = none ∧ l.requestEdition = none ∧ l.requestOutcome = .done
      ∧ l.path = .pass)
    ∧ s.plan.table = List.replicate 64 .vacant ∧ s.plan.edition = none ∧ s.plan.ignored = 0
    ∧ (∀ k, let x := s.sender k
        x.state = .free ∧ x.line = none ∧ x.timer = 0 ∧ x.key = none ∧ x.keysSent = 0 ∧ x.flushMark = false
        ∧ x.resendMark = false ∧ x.accLow = 0 ∧ x.accHigh = 0) ∧ s.pool.waitList = []
    ∧ (∀ n : LineNo, s.hwy.delay[n] = List.replicate 32 0 ∧ s.hwy.xtxd[n] = none)
    ∧ s.arc.port = .idle ∧ s.arc.queue = [] ∧ s.arc.inFlight = none ∧ s.arc.sweep = 0 ∧ s.arc.planTakenUp = none
    ∧ s.jnl.base = 0 ∧ s.jnl.slots = 64 ∧ s.jnl.head = 0 ∧ s.jnl.heldRelease = 0 ∧ s.jnl.wakeCount = 0
    ∧ s.jnl.sequence = 0 ∧ s.jnl.staging = [] ∧ s.jnl.gap = 0 ∧ s.jnl.publish = false ∧ s.jnl.holdOff = false
    ∧ s.clk.state = .free ∧ s.clk.lockedSince = false ∧ s.clk.qualCount = 0 ∧ s.clk.lockDue = false
    ∧ s.clk.spacing = 0 ∧ s.clk.missing = 0 ∧ s.clk.divider = 10240 ∧ s.clk.window = none ∧ s.now = ⟨0, 0⟩
    ∧ s.clk.timeTakenUp = none ∧ s.clk.pendingTime = none ∧ s.clk.timeAdopted = none
    ∧ s.regs.areaBase = 0 ∧ s.regs.resetCause = .powerOn ∧ s.regs.powerOnFlag = true ∧ s.regs.faultCode = .none
    ∧ s.regs.attention = 0 ∧ s.scan.shifting = false)

/-! ## The Clock and Time Unit -/

/-- Outside LOCKED the oscillator ends a frame at the length the learned divider gives it and starts the next, frame 0
being a tick boundary; a frame 3 held open for the lock it does not end (R204, R207). -/
def Obligations.FrameStartsFromTheOscillator : Prop :=
  ∀ s : State, s.part.phase = .working → s.clk.state ≠ .locked →
    (¬ (s.clk.state = .qualifying ∧ s.clk.lockDue = true ∧ s.clk.frame = 3) →
      ∃ t, exec .frameStart s = .next t
        ∧ t.clk.frame = (s.clk.frame + 1) % 4 ∧ t.clk.frameAge = 0
        ∧ t.clk.spacing = s.clk.spacing + (max (if s.clk.frame = 3 then s.clk.divider - 3 * (s.clk.divider / 4)
            else s.clk.divider / 4) s.clk.frameAge - s.clk.frameAge)
        ∧ t.clk.state = s.clk.state ∧ t.clk.qualCount = s.clk.qualCount ∧ t.clk.lockDue = s.clk.lockDue
        ∧ t.clk.missing = s.clk.missing ∧ t.clk.divider = s.clk.divider ∧ t.clk.lockedSince = s.clk.lockedSince
        ∧ t.hwy.slot = 0 ∧ t.hwy.delay = s.hwy.delay ∧ (∀ n : LineNo, t.hwy.xtxd[n] = none)
        ∧ (∀ n : LineNo, t.hwy.delayed[n] = s.hwy.delay[n].headD 0)
        ∧ t.regs = s.regs ∧ t.part = s.part ∧ t.plan = s.plan ∧ t.mem = s.mem
        ∧ (if (s.clk.frame + 1) % 4 = 0 then TickTaken s t else TickBlocksSame s t ∧ t.now = s.now))
    ∧ (s.clk.state = .qualifying ∧ s.clk.lockDue = true ∧ s.clk.frame = 3 → exec .frameStart s = .next s)

/-- The rollover of device time: the seconds of a pending setting, whose edition is then adopted, or one more; nothing
but the clock changes, and device time as the other blocks read it already stood there (R211, R212; assumption log
7). A closed divider window gives the learned divider: the count over 256, halves up, clamped (R210; assumption log
13). -/
def Obligations.RolloverAndDividerWindow : Prop :=
  ∀ s : State, s.part.phase = .working →
    (s.clk.rolloverDue = true → ∃ t, exec .timeRollover s = .next t ∧ t = { s with clk := t.clk } ∧ t.now = s.now
      ∧ t.clk = { s.clk with
          rolloverDue := false
          tick := 0
          seconds := (match s.clk.pendingTime with
            | some p => p.seconds
            | none => s.clk.seconds + 1)
          timeAdopted := (match s.clk.pendingTime with
            | some p => some p.edition
            | none => s.clk.timeAdopted)
          pendingTime := none })
    ∧ (∀ cycles, s.clk.windowDone = some cycles → ∃ t, exec .dividerWindowClose s = .next t
      ∧ t = { s with clk := { s.clk with divider := t.clk.divider, windowDone := none } }
      ∧ (let d := (cycles + 128) / 256
         t.clk.divider = if d < 10036 then 10036 else if 10444 < d then 10444 else d))

/-- An XFS edge in FREE or HOLDOVER enters QUALIFYING with count 0 and starts the spacing timer (R206, R209). An XFS
edge in QUALIFYING that is no handover: well spaced it raises the count, not above 1024, and at 1024 sets the lock-
due mark; otherwise count and mark return to 0 and clear; either way it restarts the spacing timer (R206, R207). -/
def Obligations.EdgesBeforeTheLock : Prop :=
  (∀ (cycle : Nat) (s : State), s.part.phase = .working → s.clk.state = .free ∨ s.clk.state = .holdover →
    s.clk.frameAge ≤ cycle →
    cycle ≤ max (if s.clk.frame = 3 then s.clk.divider - 3 * (s.clk.divider / 4) else s.clk.divider / 4) s.clk.frameAge →
    ∃ t, exec (.xfsEdge cycle) s = .next t
      ∧ t.clk = { s.clk with state := .qualifying, qualCount := 0, lockDue := false, spacing := 0, frameAge := cycle }
      ∧ Recorded [⟨none, s.now, .clock .qualifying⟩] s t
      ∧ t.regs = { s.regs with attention := s.regs.attention ||| 8 }
      ∧ t.part = s.part ∧ t.lines = s.lines ∧ t.pool = s.pool ∧ t.scan = s.scan ∧ t.plan = s.plan ∧ t.hwy = s.hwy
      ∧ t.mem = s.mem)
    ∧ (∀ (cycle : Nat) (s : State), s.part.phase = .working → s.clk.state = .qualifying → s.clk.frameAge ≤ cycle →
    cycle ≤ (if s.clk.lockDue = true ∧ s.clk.frame = 3 then 5120
      else max (if s.clk.frame = 3 then s.clk.divider - 3 * (s.clk.divider / 4) else s.clk.divider / 4) s.clk.frameAge) →
    let spacing := s.clk.spacing + (cycle - s.clk.frameAge)
    let count := min (s.clk.qualCount + 1) 1024
    (¬ (2483 ≤ spacing ∧ spacing ≤ 2637) →
      exec (.xfsEdge cycle) s
        = .next { s with clk := { s.clk with qualCount := 0, lockDue := false, spacing := 0, frameAge := cycle } })
    ∧ (2483 ≤ spacing ∧ spacing ≤ 2637 → ¬ (s.clk.lockDue = true ∧ s.clk.frame = 3 ∧ 2483 ≤ cycle) →
      exec (.xfsEdge cycle) s = .next { s with clk := { s.clk with
        qualCount := count, lockDue := s.clk.lockDue || decide (count = 1024), spacing := 0, frameAge := cycle } }))

/-- The handover edge: a well-spaced edge 2483 cycles or more into a frame 3 with the lock due starts frame 0 of a new
tick in LOCKED, with a divider window open; paused senders enter GAP with the resend mark, and the frame is driven
with each channel's output sample after those changes, the accumulators standing still but for a burst's (R141, R145, R150,
R152, R156, R207, R209). The tick boundary is taken whole: scan strobe, timers, bus wait, hold-off and visit request (R1,
R98, R162, R204, R218). That the lock-due mark is then clear is the model's reading (assumption log 14), and that the visit
is asked for before the journal sequence of the CLOCK record its choice (24). -/
def Obligations.HandoverEdgeLocks : Prop :=
  ∀ (cycle : Nat) (s : State), s.part.phase = .working → s.clk.state = .qualifying → s.clk.lockDue = true →
    s.clk.frame = 3 → s.clk.frameAge ≤ cycle → 2483 ≤ cycle → cycle ≤ 5120 →
    2483 ≤ s.clk.spacing + (cycle - s.clk.frameAge) → s.clk.spacing + (cycle - s.clk.frameAge) ≤ 2637 →
    ∃ t, exec (.xfsEdge cycle) s = .next t
      ∧ t.clk.state = .locked ∧ t.clk.frame = 0 ∧ t.clk.frameAge = 0 ∧ t.clk.spacing = 0 ∧ t.clk.lockedSince = true
      ∧ t.clk.missing = 0 ∧ t.clk.lockDue = false ∧ t.clk.window = some ⟨0, 0⟩ ∧ t.clk.divider = s.clk.divider
      ∧ t.now = s.now.next s.clk.settle.pendingTime
      ∧ (∀ k, (s.sender k).state = .paused → (t.sender k).state = .gap ∧ (t.sender k).timer = 0
          ∧ (t.sender k).resendMark = true ∧ (t.sender k).line = (s.sender k).line)
      ∧ (∀ k, (s.sender k).state = .free → (t.sender k).state = .free ∧ (t.sender k).line = (s.sender k).line)
      ∧ (∀ n : LineNo, t.hwy.xtxd[n] ≠ none) ∧ t.hwy.slot = 0 ∧ t.hwy.delay = s.hwy.delay
      ∧ (∀ n : LineNo, t.hwy.delayed[n] = s.hwy.delay[n].headD 0)
      ∧ (∀ n, t.line n = { s.line n with completionTimer := (s.line n).completionTimer.map (· + 1) })
      ∧ t.regs = { s.regs with attention := s.regs.attention ||| 8 }
      ∧ t.part = s.part ∧ t.plan = s.plan ∧ t.mem = s.mem
      ∧ ∃ u v, TickTaken s u ∧ u.hwy.delay = s.hwy.delay
        ∧ v.lines = u.lines ∧ v.scan = u.scan ∧ v.now = u.now ∧ v.hwy.delay = u.hwy.delay
        ∧ v.pool.waitList = u.pool.waitList ∧ v.pool.joins = u.pool.joins
        ∧ Recorded [⟨none, t.now, .clock .locked⟩] u v
        ∧ (∀ k, v.sender k = if (u.sender k).state = .paused then { u.sender k with
            state := .gap, timer := 0, begun := false, burstDue := false, resendMark := true } else u.sender k)
        ∧ DrivenSame v t

/-- An XFS edge in LOCKED: sooner than 2483 cycles into the frame it is ignored; from there to 2637 it starts the next
frame, driven whole with each channel's output sample, the accumulators of the sounding bursts going on by their keys'
increments, and sets the missing count to 0; its cycles count in the divider window (R145, R150, R152, R208, R210).
That a full window's count waits for DIVIDER_WINDOW_CLOSE, the divider unchanged until then, is the model's reading
(assumption log 13). -/
def Obligations.EdgesPaceTheLockedClock : Prop :=
  ∀ (cycle : Nat) (s : State), s.part.phase = .working → s.clk.state = .locked → s.clk.frameAge ≤ cycle →
    cycle ≤ 2637 →
    (cycle < 2483 → exec (.xfsEdge cycle) s = .next { s with clk := { s.clk with
        spacing := s.clk.spacing + (cycle - s.clk.frameAge), frameAge := cycle } })
    ∧ (2483 ≤ cycle → ∃ t, exec (.xfsEdge cycle) s = .next t
        ∧ t.clk.state = .locked ∧ t.clk.frame = (s.clk.frame + 1) % 4 ∧ t.clk.frameAge = 0 ∧ t.clk.missing = 0
        ∧ t.clk.spacing = 0 ∧ t.clk.divider = s.clk.divider ∧ t.clk.lockedSince = s.clk.lockedSince
        ∧ t.hwy.slot = 0 ∧ t.hwy.delay = s.hwy.delay ∧ (∀ n : LineNo, t.hwy.xtxd[n] ≠ none)
        ∧ (∀ n : LineNo, t.hwy.delayed[n] = s.hwy.delay[n].headD 0)
        ∧ t.regs = s.regs ∧ t.part = s.part ∧ t.plan = s.plan ∧ t.mem = s.mem
        ∧ WindowCounted cycle s t
        ∧ ((s.clk.frame + 1) % 4 ≠ 0 → DrivenSame s t)
        ∧ ((s.clk.frame + 1) % 4 = 0 → ∃ u, TickTaken s u ∧ u.hwy.delay = s.hwy.delay ∧ DrivenSame u t))

/-- A frame 3 held open to 5120 cycles ends without a lock, mark and count cleared (R207); 10240 cycles without an edge
in QUALIFYING lose the reference: FREE, or HOLDOVER once the unit has locked (R206). -/
def Obligations.QualifyingTimesOut : Prop :=
  ∀ s : State, s.part.phase = .working → s.clk.state = .qualifying →
    (s.clk.lockDue = true → s.clk.frame = 3 → ∃ t, exec .lockHandoverTimeout s = .next t
      ∧ t.clk.state = .qualifying ∧ t.clk.lockDue = false ∧ t.clk.qualCount = 0 ∧ t.clk.frame = 0 ∧ t.clk.frameAge = 0
      ∧ t.clk.spacing = s.clk.spacing + (5120 - s.clk.frameAge) ∧ t.clk.divider = s.clk.divider ∧ TickTaken s t
      ∧ t.hwy.slot = 0 ∧ t.hwy.delay = s.hwy.delay ∧ (∀ n : LineNo, t.hwy.xtxd[n] = none)
      ∧ (∀ n : LineNo, t.hwy.delayed[n] = s.hwy.delay[n].headD 0)
      ∧ t.regs = s.regs ∧ t.part = s.part ∧ t.plan = s.plan ∧ t.mem = s.mem)
    ∧ (s.clk.frameAge + (10240 - s.clk.spacing) ≤ s.clk.frameLimit → ∃ t, exec .qualifyTimeout s = .next t
      ∧ t.clk = { s.clk with
          state := if s.clk.lockedSince = true then .holdover else .free
          qualCount := 0
          lockDue := false
          spacing := s.clk.spacing + (10240 - s.clk.spacing)
          frameAge := s.clk.frameAge + (10240 - s.clk.spacing) }
      ∧ Recorded [⟨none, s.now, .clock (if s.clk.lockedSince = true then .holdover else .free)⟩] s t
      ∧ t.regs = { s.regs with attention := s.regs.attention ||| 8 }
      ∧ t.part = s.part ∧ t.lines = s.lines ∧ t.pool = s.pool ∧ t.scan = s.scan ∧ t.plan = s.plan ∧ t.hwy = s.hwy
      ∧ t.mem = s.mem)

/-- A filled frame: the first three missing edges in a row leave the clock LOCKED, the frame driven and its 2637 cycles
counted in the divider window like any other's (R145, R150, R152, R208, R210); the fourth loses the reference at the start
of the frame it fills: HOLDOVER, the window discarded, the senders in ON or GAP paused, XTXD released (R140, R156, R208,
R209). Where the frame is frame 0 of a tick, the tick boundary is taken whole before that (R1, R98, R162, R204, R218), and
then the expiries that a free value, whatever it is, puts before the loss: R140 gives no order (assumption log 11). The
model's readings: the divider changes at DIVIDER_WINDOW_CLOSE alone (13), and the missing count stands at 4 after the loss
(14). Its own choices: the timer of a PAUSED sender 0 (26), the visit asked for before the journal sequence of the CLOCK
record (24), and a window whose 256th boundary is that of the loss closed, not discarded (25). -/
def Obligations.FilledFrames : Prop :=
  ∀ s : State, s.part.phase = .working → s.clk.state = .locked → s.clk.missing ≤ 3 →
    ∃ t, exec .filledFrame s = .next t
      ∧ t.clk.frame = (s.clk.frame + 1) % 4 ∧ t.clk.frameAge = 0 ∧ t.clk.missing = s.clk.missing + 1
      ∧ t.clk.spacing = 0 ∧ t.clk.divider = s.clk.divider ∧ t.clk.lockedSince = s.clk.lockedSince
      ∧ t.hwy.slot = 0 ∧ t.hwy.delay = s.hwy.delay ∧ t.part = s.part ∧ t.plan = s.plan ∧ t.mem = s.mem
      ∧ (∀ n : LineNo, t.hwy.delayed[n] = s.hwy.delay[n].headD 0)
      ∧ (s.clk.missing ≤ 2 → t.clk.state = .locked ∧ t.regs = s.regs ∧ WindowCounted 2637 s t
          ∧ (if (s.clk.frame + 1) % 4 = 0 then ∃ u, TickTaken s u ∧ u.hwy.delay = s.hwy.delay ∧ DrivenSame u t
            else DrivenSame s t))
      ∧ (s.clk.missing = 3 → t.clk.state = .holdover ∧ t.clk.window = none
          ∧ t.clk.windowDone = (match s.clk.window with
            | some w => if (s.clk.frame + 1) % 4 = 0 ∧ 255 ≤ w.ticks then some (w.cycles + 2637) else s.clk.windowDone
            | none => s.clk.windowDone)
          ∧ t.regs = { s.regs with attention := s.regs.attention ||| 8 } ∧ (∀ n : LineNo, t.hwy.xtxd[n] = none)
          ∧ ∃ v, (if (s.clk.frame + 1) % 4 = 0 then
                ∃ u, TickTaken s u ∧ u.part = s.part ∧ u.clk.state = .locked ∧ u.clk.frame = 0
                  ∧ (∀ n : LineNo, u.hwy.xtxd[n] = none)
                  ∧ Taken ((Config.expiriesFirst s.clk.losses).flatMap fun k => [.burstExpiry k, .gapExpiry k]) u v
              else TickBlocksSame s v ∧ v.now = s.now)
            ∧ t.now = v.now ∧ t.scan = v.scan ∧ t.lines = v.lines
            ∧ t.pool.waitList = v.pool.waitList ∧ t.pool.joins = v.pool.joins
            ∧ Recorded [⟨none, t.now, .clock .holdover⟩] v t
            ∧ ∀ k, let x := v.sender k
              t.sender k = if x.state = .on ∨ x.state = .gap
                then { x with state := .paused, timer := 0, begun := false, burstDue := false } else x)

/-! ## The Scan Port and the Dial Decoder -/

/-- What each line does with its sample of a scan frame, by its main state: at rest, nothing; in BLOCKED(FAULT) the
clear run and its comparison; in a conditioning state the integrator, fault run and its comparison, phase timer and
debounced state, all but a BREAK_START in SEIZING, which may adopt a profile (MakeStartSeizesOrStartsATrain). Without a
transition that is all, but for MARGINAL, which a MARGINAL sample raises once in a train (R1, R3 to R12, R14, R64, R90) and
which, trapped, takes a waiting line out of the wait list (R128).
The port goes on: idle, the samples of the tick taken (R99), or strobing a frame it owes, dated to the tick of that strobe
(R1, R2). A line takes no sample of a tick up to that of its UNBLOCK (R31; assumption log 19), and the
comparisons of R10 and R12 are made at the sample (assumption log 9). -/
def Obligations.ScanFrameSamples : Prop :=
  ∀ (frame : BitVec 192) (s : State), s.part.phase = .working → s.scan.shifting = true →
    ∃ t, exec (.scanFrameComplete frame) s = .next t
      ∧ t.part = s.part ∧ t.regs = s.regs ∧ t.plan = s.plan ∧ t.hwy = s.hwy ∧ t.clk = s.clk ∧ t.mem = s.mem
      ∧ t.scan = (if s.scan.owed = 0
          then { s.scan with shifting := false, sampleAt := s.scan.strobedAt, tickSampled := true }
          else { s.scan with owed := s.scan.owed - 1, sampleAt := s.scan.strobedAt, strobedAt := s.now })
      ∧ (∀ k, (s.sender k).state ≠ .free → t.sender k = s.sender k)
      ∧ ∀ n : LineNo,
        let l := s.line n
        let high := frame.getLsbD (2 * n.val)
        let low := frame.getLsbD (2 * n.val + 1)
        let fault := high && low
        (l.main = .outOfService ∨ l.main = .blocked .admin → SameButSender l (t.line n))
        ∧ ∀ p, l.adopted = some p →
          (l.main = .blocked .fault →
            let run := if fault then 0 else min (l.clearRun + 1) 65535
            SameButSender
              { l with clearRun := run, runTestMet := !fault && decide (max p.faultPersistence 1 ≤ run) } (t.line n))
          ∧ (l.main.conditioning = true → l.skipSamples ≠ 0 →
              SameButSender { l with skipSamples := l.skipSamples - 1 } (t.line n))
          ∧ (l.main.conditioning = true → l.skipSamples = 0 →
            let raises := (!high && low) || (high && !low && decide (p.marginalPolicy = .asClosed))
            let lowers := (!high && !low) || (high && !low && decide (p.marginalPolicy = .asOpen))
            let i := if raises then min (l.integrator + 1) p.depth else if lowers then l.integrator - 1 else l.integrator
            let run := if fault then min (l.faultRun + 1) 65535 else 0
            let makes := !fault && decide (l.loop = .opened) && decide (i = p.depth)
            let breaks := !fault && decide (l.loop = .closed) && decide (i = 0)
            let marginal := high = true ∧ low = false ∧ (l.main = .collecting ∨ l.main = .through) ∧ l.sub ≠ .idle
              ∧ l.marginalRaised = false
            let sampled := { l with
              integrator := i, faultRun := run, phaseTimer := min (l.phaseTimer + 1) 65535
              intervalTimer := min (l.intervalTimer + 1) 65535
              runTestMet := fault && decide (p.faultPersistence ≠ 0 ∧ p.faultPersistence ≤ run) }
            (l.main ≠ .seizing ∨ breaks = false →
              (t.line n).integrator = i ∧ (t.line n).faultRun = run
                ∧ (t.line n).loop = (if makes then .closed else if breaks then .opened else l.loop)
                ∧ (t.line n).phaseTimer = (if makes || breaks then 0 else min (l.phaseTimer + 1) 65535)
                ∧ (t.line n).runTestMet = sampled.runTestMet
                ∧ (t.line n).clearRun = l.clearRun ∧ (t.line n).adopted = l.adopted)
            ∧ (makes = false → breaks = false → ¬ marginal →
                SameButSender sampled (t.line n) ∧ (OnlyLine n s → Recorded [] s t))
            ∧ (makes = false → breaks = false → marginal →
                SameButSender (afterSet p true 0x020 { sampled with marginalRaised := true }) (t.line n)
                  ∧ (OnlyLine n s → ListAfterSet p 0x020 n s t
                      ∧ Recorded (setRecords n s.scan.strobedAt p 0x020 l.main) s t)))

/-- A MAKE_START in ON_HOOK seizes the line: SEIZING, or, with no guard, COLLECTING at once with a SEIZE record (R20,
R21); one that ends a break of Bmin to Bmax with no train in COLLECTING or THROUGH starts a train with T_id for the make
now beginning (R41, R49, R55, R76). A BREAK_START in SEIZING abandons the seizure without a record of its own, and a
pending profile is adopted (R21, R35). The records are those of the frame when no other line makes any. -/
def Obligations.MakeStartSeizesOrStartsATrain : Prop :=
  ∀ (frame : BitVec 192) (n : LineNo) (p : Profile) (s : State), s.part.phase = .working → s.scan.shifting = true →
    (s.line n).adopted = some p → (s.line n).skipSamples = 0 →
    let l := (conditionLine p (frameCode frame n) (s.line n)).1
    let event := (conditionLine p (frameCode frame n) (s.line n)).2
    let b := min ((s.line n).intervalTimer + 1) 65535
    let d := s.scan.strobedAt
    ∃ t, exec (.scanFrameComplete frame) s = .next t
      ∧ (event = .makeStart → l.main = .onHook → p.guard ≠ 0 →
          SameButSender { l with main := .seizing, intervalTimer := 0 } (t.line n) ∧ (OnlyLine n s → Recorded [] s t))
      ∧ (event = .makeStart → l.main = .onHook → p.guard = 0 →
          SameButSender { trainIdle l with
            main := .collecting, intervalTimer := 0, digits := [], completionTimer := none, cls := .normal } (t.line n)
          ∧ (OnlyLine n s → Recorded [⟨some n, d, .seize⟩] s t))
      ∧ (event = .makeStart → l.main = .collecting ∨ l.main = .through → l.sub = .idle → p.bMin ≤ b → b ≤ p.bMax →
          SameButSender { l with
            pulses := 1, pulseBreak := b, causes := 0, marginalRaised := false, reopened := false, sub := .make
            threshold := some (thresholdOf p l.estimate), intervalTimer := 0 } (t.line n)
          ∧ (OnlyLine n s → Recorded [] s t))
      ∧ (event = .breakStart → l.main = .seizing →
          SameButSender (pendingAdopted { l with main := .onHook, sub := .idle, intervalTimer := 0 }) (t.line n)
          ∧ (OnlyLine n s → Recorded (pendingRecords n d l) s t))

/-- A pulse break that ends inside a train at Bmin to Bmax: the pulse before it is checked for ratio and speed, the
estimate moves by the correction of R72, and then, unless the set is trapped, the count rises, not above 15, and
T_id is computed from the new estimate; a trapped set suspends the line, the estimate standing, with an EXCEPTION
record, the frame's only one when no other line makes any, and leaves the wait list (R50, R51, R54, R64, R71, R72, R76, R86
to R90, R128). -/
def Obligations.PulseBreakEnds : Prop :=
  ∀ (frame : BitVec 192) (n : LineNo) (p : Profile) (s : State), s.part.phase = .working → s.scan.shifting = true →
    (s.line n).adopted = some p → (s.line n).skipSamples = 0 → (s.line n).main = .collecting ∨ (s.line n).main = .through →
    (s.line n).sub = .brk → (s.line n).reopened = false → (s.line n).loop = .opened →
    (conditionLine p (frameCode frame n) (s.line n)).2 = .makeStart →
    let b := min ((s.line n).intervalTimer + 1) 65535
    p.bMin ≤ b → b ≤ p.bMax →
    let l := (conditionLine p (frameCode frame n) (s.line n)).1
    let marginal := frameCode frame n = .marginal ∧ l.marginalRaised = false
    let period := l.pulseBreak + l.heldMake
    let ratio := 100 * l.pulseBreak / period
    let used := if period < p.pLo then p.pLo else if p.pHi < period then p.pHi else period
    let delta : Int := 16 * (used : Int) - l.estimate
    let q : Int := ((delta.natAbs + 2 ^ (p.gain - 1)) / 2 ^ p.gain : Nat)
    let estimate := ((l.estimate : Int) + (if delta < 0 then -q else q)).toNat
    let set : CondSet := (if ratio < p.ratioLo ∨ p.ratioHi < ratio then 0x002 else 0)
      ||| (if period < p.pLo ∨ p.pHi < period then 0x004 else 0) ||| (if marginal then 0x020 else 0)
    let l1 := { l with
      estimate := estimate, causes := l.causes ||| set, intervalTimer := 0
      marginalRaised := l.marginalRaised || decide (frameCode frame n = LoopCode.marginal) }
    ∃ t, exec (.scanFrameComplete frame) s = .next t
      ∧ (set &&& p.trapMask = 0 → SameButSender { l1 with
          sub := .make, pulses := min (l.pulses + 1) 15, pulseBreak := b, sticky := l.sticky ||| set
          threshold := some (thresholdOf p estimate) } (t.line n))
      ∧ (set &&& p.trapMask ≠ 0 → SameButSender
          (suspendedLine (if l.main = .through then .through else .collecting) l1) (t.line n))
      ∧ (OnlyLine n s → ListAfterSet p set n s t ∧ Recorded (setRecords n s.scan.strobedAt p set l.main) s t)

/-- Glitches and candidate breaks. Inside a train: a break shorter than Bmin is absorbed into the make before it (R45); a
make of at least Mmin ends in a candidate pulse break (R43); a shorter one is absorbed, and the break before it is
reopened (R44); a reopened break that ends by Bmax stays the pulse it was (R53). Both glitches raise GLITCH, and MARGINAL
joins the set of an event whose sample brings it; a trapped set discards the train and suspends the line, the absorption
standing (R64, R85 to R90). With no train, SUSPENDED included: a short break is absorbed and a make ends in a candidate
break, with no condition (R28, R42, R45). A line so suspended leaves the wait list (R128). The records are those of the
frame when no other line makes any. The model's readings: the reopened break's length after R53 (assumption log 20), a
make glitch under a T_id below Mmin and a make of exactly T_id that a break ends (21), MARGINAL at a candidate pulse break
(8). -/
def Obligations.GlitchesAreAbsorbed : Prop :=
  ∀ (frame : BitVec 192) (n : LineNo) (p : Profile) (s : State), s.part.phase = .working → s.scan.shifting = true →
    (s.line n).adopted = some p → (s.line n).skipSamples = 0 →
    let l := (conditionLine p (frameCode frame n) (s.line n)).1
    let event := (conditionLine p (frameCode frame n) (s.line n)).2
    let length := min ((s.line n).intervalTimer + 1) 65535
    let dialling := l.main = .collecting ∨ l.main = .through
    let marg : CondSet := if frameCode frame n = .marginal ∧ l.marginalRaised = false then 0x020 else 0
    let l1 : Line := { l with marginalRaised := l.marginalRaised || decide (frameCode frame n = LoopCode.marginal) }
    ∃ t, exec (.scanFrameComplete frame) s = .next t
      ∧ (let settles (set : CondSet) (m : Line) : Prop :=
          SameButSender (afterSet p true set m) (t.line n)
            ∧ (OnlyLine n s → ListAfterSet p set n s t ∧ Recorded (setRecords n s.scan.strobedAt p set l.main) s t)
        (event = .makeStart → dialling → l.sub = .brk → l.reopened = false → length < p.bMin →
          settles (0x001 ||| marg) { l1 with sub := .make, intervalTimer := min (l.heldMake + length) 65535 })
        ∧ (event = .makeStart → dialling → l.sub = .brk → l.reopened = true → length ≤ p.bMax →
          settles marg { l1 with
            sub := .make, pulseBreak := length, reopened := false, threshold := some (thresholdOf p l.estimate)
            intervalTimer := 0 })
        ∧ (event = .breakStart → dialling → l.sub = .make → p.mMin ≤ length →
          settles marg { l1 with sub := .brk, heldMake := length, intervalTimer := 0 })
        ∧ (event = .breakStart → dialling → l.sub = .make → length < p.mMin →
          settles (0x001 ||| marg) { l1 with
            sub := .brk, intervalTimer := min (l.pulseBreak + length) 65535, reopened := true, threshold := none }))
      ∧ (dialling ∨ l.main = .suspended → l.sub = .idle → l.reopened = false →
          (event = .makeStart → length < p.bMin →
            SameButSender { l with intervalTimer := min (l.heldMake + length) 65535 } (t.line n))
          ∧ (event = .breakStart → SameButSender { l with heldMake := length, intervalTimer := 0 } (t.line n))
          ∧ (event = .breakStart ∨ event = .makeStart ∧ length < p.bMin → OnlyLine n s →
              t.pool = s.pool ∧ Recorded [] s t))

/-- Breaks that end above Bmax. Flash lengths with no train apart, such a break raises LONG_BREAK: in a train the train is
discarded (R52), without one the set is not among the cause flags (R48, R86). A flash, above Bmax and no greater than Fmax
with no train in COLLECTING or THROUGH: its key, if mapped, is stored, or dropped with STORE_FULL by a full store; in
THROUGH with flash-restart on the line collects anew, the class kept (R26, R62, R63). A trapped set suspends the line; a
trapped flash stores nothing and restarts nothing (R88 to R90). A line so suspended leaves the wait list (R128); one that
does not wait joins with the key of a flash (R127, R130). In SUSPENDED a break of Bmin or longer does nothing, but
for the FLASH record IGNORED of a flash (R28). The records are those of the frame when no other line makes any. A break of
exactly Rel that ends here before its release is taken counts as a long break, or as nothing in SUSPENDED (the model's
reading, assumption log 8). That a store holds no more than 32 keys is a law of every run (BufferLaws). -/
def Obligations.LongBreaksAndFlashes : Prop :=
  ∀ (frame : BitVec 192) (n : LineNo) (p : Profile) (s : State), s.part.phase = .working → s.scan.shifting = true →
    (s.line n).adopted = some p → (s.line n).skipSamples = 0 → (s.line n).store.length ≤ 32 →
    (conditionLine p (frameCode frame n) (s.line n)).2 = .makeStart →
    let l := (conditionLine p (frameCode frame n) (s.line n)).1
    let b := min ((s.line n).intervalTimer + 1) 65535
    let d := s.scan.strobedAt
    let dialling := l.main = .collecting ∨ l.main = .through
    let marg : CondSet := if frameCode frame n = .marginal ∧ l.marginalRaised = false then 0x020 else 0
    let full := p.flashMapping ≠ none ∧ 32 ≤ l.store.length
    let set : CondSet := if full then 0x040 else 0
    let flashed := { l with
      intervalTimer := 0, sticky := l.sticky ||| set
      store := match p.flashMapping with
        | some k => if 32 ≤ l.store.length then l.store else l.store ++ [⟨k, .flash⟩]
        | none => l.store }
    let disposition : Disposition := if p.flashMapping = none then .none else if full then .dropped else .stored
    p.bMin ≤ b →
    ∃ t, exec (.scanFrameComplete frame) s = .next t
      ∧ (dialling → l.sub = .brk → p.bMax < b →
          SameButSender (afterSet p true (0x010 ||| marg) { trainIdle l with
            intervalTimer := 0, marginalRaised := l.marginalRaised || decide (frameCode frame n = LoopCode.marginal) }) (t.line n)
          ∧ (OnlyLine n s → ListAfterSet p (0x010 ||| marg) n s t
              ∧ Recorded (setRecords n d p (0x010 ||| marg) l.main) s t))
      ∧ (dialling → l.sub = .idle → p.bMax < b → p.fMax = 0 ∨ p.fMax < b →
          SameButSender (afterSet p false 0x010 { l with intervalTimer := 0 }) (t.line n)
          ∧ (OnlyLine n s → ListAfterSet p 0x010 n s t ∧ Recorded (setRecords n d p 0x010 l.main) s t))
      ∧ (dialling → l.sub = .idle → p.bMax < b → b ≤ p.fMax → set &&& p.trapMask ≠ 0 →
          SameButSender (suspendedLine (if l.main = .through then .through else .collecting) { l with intervalTimer := 0 })
            (t.line n)
          ∧ (OnlyLine n s → LeavesTheList n s t
              ∧ Recorded (⟨some n, d, .flash .discarded⟩ :: setRecords n d p set l.main) s t))
      ∧ (dialling → l.sub = .idle → p.bMax < b → b ≤ p.fMax → set &&& p.trapMask = 0 →
          (l.main = .through → p.flashRestart = true → SameButSender { trainIdle flashed with
            main := .collecting, digits := [], completionTimer := none } (t.line n))
          ∧ (l.main = .collecting ∨ p.flashRestart = false → SameButSender flashed (t.line n))
          ∧ (OnlyLine n s → PoolFollows n s t ∧ Recorded [⟨some n, d, .flash disposition⟩] s t))
      ∧ (l.main = .suspended → SameButSender { l with intervalTimer := 0 } (t.line n)
          ∧ (OnlyLine n s → t.pool = s.pool ∧ Recorded
            (if p.bMax < b ∧ b ≤ p.fMax then [⟨some n, d, .flash .ignored⟩] else []) s t))

/-- The guard expiry takes a line in SEIZING to COLLECTING with a SEIZE record (R21). -/
def Obligations.GuardExpiryCollects : Prop :=
  ∀ (n : LineNo) (p : Profile) (s : State), s.part.phase = .working → (s.line n).adopted = some p →
    (s.line n).main = .seizing → (s.line n).loop = .closed → p.guard ≤ (s.line n).phaseTimer →
    ∃ t, exec (.guardExpiry n) s = .next t
      ∧ t.line n = { trainIdle (s.line n) with
          main := .collecting, digits := [], completionTimer := none, cls := .normal }
      ∧ OtherLinesSame n s t ∧ OtherBlocksSame s t ∧ t.pool = s.pool
      ∧ Recorded [⟨some n, s.scan.sampleAt, .seize⟩] s t

/-- A digit end (R46, R56 to R61, R85 to R90, R97, R98): the key of the pulse count joins the call digits in COLLECTING,
and the store in OVERLAP or after completion with FORWARD; OVERCOUNT and STORE_FULL form the set; a trapped set
discards the digit and suspends the line. An untrapped digit in COLLECTING is evaluated against the plan (R103, R105): the
number completes EXACT when the selected entry's length is reached and it is not blocked (R106), then UNMATCHED when no
entry is live under COMPLETE_NOW (R107), then FULL at 24 digits (R108), and otherwise stays open (R108). A waiting line that
is suspended leaves the wait list (R128); one that is not goes on waiting, with its joining time kept and its entry moved
among the URGENT entries at a class raise (R105, R129); a line that does not wait joins when it has keys (R127, R130). -/
def Obligations.DigitEnds : Prop :=
  ∀ (n : LineNo) (p : Profile) (threshold : Nat) (s : State), s.part.phase = .working → (s.line n).adopted = some p →
    (s.line n).main = .collecting ∨ (s.line n).main = .through → (s.line n).sub = .make →
    (s.line n).threshold = some threshold → threshold ≤ (s.line n).intervalTimer → (s.line n).store.length ≤ 32 →
    let l := s.line n
    let d := s.scan.sampleAt
    let key := digitKey p.numbering l.pulses
    let stores := if l.main = .collecting then p.sendingMode = .overlap else p.afterCompletion = .forward
    let full := key ≠ none ∧ stores ∧ 32 ≤ l.store.length
    let set : CondSet := (if key = none then 0x008 else 0) ||| (if full then 0x040 else 0)
    let disposition : Disposition :=
      if key = none then .discarded
      else if l.main = .collecting then
        (if p.sendingMode = .enBloc then .collected else if full then .collectedDropped else .collectedStored)
      else (if p.afterCompletion = .ignore then .ignored else if full then .dropped else .stored)
    let ended := { trainIdle l with causes := l.causes ||| set, lastCauses := l.causes ||| set }
    let taken := { ended with
      sticky := l.sticky ||| set
      store := match key with
        | some k => if stores ∧ l.store.length < 32 then l.store ++ [⟨k, .dialled⟩] else l.store
        | none => l.store }
    let record (x : Disposition) : Record := ⟨some n, d, .digit key l.pulses x (l.causes ||| set) l.estimate⟩
    ∃ t, exec (.interdigitExpiry n) s = .next t
      ∧ (set &&& p.trapMask ≠ 0 →
          t.line n = suspendedLine (if l.main = .through then .through else .collecting) ended
          ∧ LeavesTheList n s t ∧ OtherLinesSame n s t
          ∧ Recorded [record .discarded, ⟨some n, d, .exception (set &&& p.trapMask) l.main⟩] s t)
      ∧ (set &&& p.trapMask = 0 → l.main = .through ∨ key = none →
          SameButSender taken (t.line n) ∧ PoolFollows n s t ∧ Recorded [record disposition] s t)
      ∧ ∀ k, set &&& p.trapMask = 0 → l.main = .collecting → key = some k →
          let collected := { taken with
            digits := l.digits ++ [k], completionTimer := if p.tComplete = 0 then none else some 0 }
          let ev := evaluate s.plan.table (l.digits ++ [k])
          let c := l.digits.length + 1
          let exact := (∃ i e m, ev.selected = some (i, e) ∧ e.length = some m ∧ m ≤ c) ∧ ev.blocked = false
          let unmatched := ev.live = false ∧ p.unmatchedAction = .completeNow
          let completes (o : NumberOutcome) : Prop := SameButSender (numberLine p o ev collected) (t.line n)
            ∧ (if numberSet p o ev collected &&& p.trapMask = 0 then PoolFollows n s t else LeavesTheList n s t)
            ∧ Recorded (record disposition :: numberRecords n p o ev d collected) s t
          (exact → completes .exact)
            ∧ (¬ exact → unmatched → completes .unmatched)
            ∧ (¬ exact → ¬ unmatched → 24 ≤ c → completes .full)
            ∧ (¬ exact → ¬ unmatched → c < 24 → SameButSender { collected with cls := raisedClass ev l } (t.line n)
                ∧ PoolFollows n s t ∧ Recorded [record disposition] s t)

/-- The completion timer's expiry in COLLECTING, after the sample of its tick and the expiries tested before it: the
number completes TIMEOUT with a selected entry and UNMATCHED without (R98, R99, R109, R111 to R114). A trapped set takes a
waiting line out of the wait list (R128); otherwise it goes on waiting, its joining time kept and its entry moved among the
URGENT entries at a class raise (R105, R129), and a line that does not wait joins when it has keys (R127, R130). -/
def Obligations.CompletionTimerCompletes : Prop :=
  ∀ (n : LineNo) (p : Profile) (elapsed : Nat) (s : State), s.part.phase = .working → s.scan.tickSampled = true →
    (s.line n).adopted = some p → (s.line n).main = .collecting → (s.line n).completionTimer = some elapsed →
    p.tComplete ≤ elapsed → (s.line n).interdigitDue = false → (s.line n).releaseDue = false →
    let ev := evaluate s.plan.table (s.line n).digits
    let o : NumberOutcome := if ev.selected = none then .unmatched else .timeout
    ∃ t, exec (.completionTimerExpiry n) s = .next t
      ∧ SameButSender (numberLine p o ev (s.line n)) (t.line n)
      ∧ (if numberSet p o ev (s.line n) &&& p.trapMask = 0 then PoolFollows n s t else LeavesTheList n s t)
      ∧ Recorded (numberRecords n p o ev s.scan.sampleAt (s.line n)) s t

/-- A break that reaches Rel in a call releases the line to ON_HOOK: the store, the call digits and a sender are given
up, a pending profile is adopted (R22 to R24, R35, R47, R128, R139, R142). The freed sender goes to the head of the wait
list, and with no line waiting it stays FREE (R130, R131). -/
def Obligations.ReleaseEndsTheCall : Prop :=
  ∀ (n : LineNo) (p : Profile) (s : State), s.part.phase = .working → (s.line n).adopted = some p →
    (s.line n).main = .collecting ∨ (s.line n).main = .through ∨ (s.line n).main = .suspended →
    (s.line n).loop = .opened → p.rel ≤ (s.line n).intervalTimer →
    ∃ t, exec (.release n) s = .next t
      ∧ t.line n = pendingAdopted (releasedLine .onHook (s.line n))
      ∧ (∀ e ∈ t.pool.waitList, e.line ≠ n)
      ∧ (∀ k, (s.line n).attached = some k → (∀ e ∈ s.pool.waitList, e.line = n) →
          (t.sender k).state = .free ∧ (t.sender k).line = none)
      ∧ (∀ k, FreedGoesOn false k n s t)
      ∧ ((s.line n).attached = none → LeavesTheList n s t ∧ OtherLinesSame n s t)
      ∧ Recorded (⟨some n, s.scan.sampleAt, .release (s.line n).store.length⟩
          :: (cutRecord n s.scan.sampleAt s ++ pendingRecords n s.scan.sampleAt (s.line n))) s t

/-- A fault run that reached the persistence at its sample, no release due, blocks a line with reason FAULT, with the
release effects in a call; a clear run that reached it returns a BLOCKED(FAULT) line to ON_HOOK (R10, R12, R13, R32, R33,
R35). A sender so freed goes to the head of the wait list, and with no line waiting it stays FREE (R130, R131, R139). When
the same sample brings a release, the release is taken first and the block then takes the line from ON_HOOK, whatever
persistence a profile adopted in between carries (R14, R32). When the mark is set, ScanFrameSamples says; that it is kept
until the step is taken is the model's (assumption log 9). -/
def Obligations.FaultBlockAndReturn : Prop :=
  ∀ (n : LineNo) (s : State), s.part.phase = .working → (s.line n).runTestMet = true →
    ((s.line n).main.conditioning = true → (s.line n).releaseDue = false →
      ∃ t, exec (.faultBlock n) s = .next t
        ∧ t.line n = pendingAdopted (if (s.line n).main.inCall then releasedLine (.blocked .fault) (restartedLine (s.line n))
            else { restartedLine (s.line n) with main := .blocked .fault, sub := .idle })
        ∧ ((s.line n).main.inCall = true → (∀ k, FreedGoesOn false k n s t)
            ∧ ((s.line n).attached = none → LeavesTheList n s t ∧ OtherLinesSame n s t))
        ∧ ((s.line n).main.inCall = false → t.pool = s.pool ∧ OtherLinesSame n s t)
        ∧ Recorded (⟨some n, s.scan.sampleAt, .block .fault⟩
          :: ((if (s.line n).main.inCall then cutRecord n s.scan.sampleAt s else [])
            ++ pendingRecords n s.scan.sampleAt (s.line n))) s t)
    ∧ ((s.line n).main = .blocked .fault →
      ∃ t, exec (.faultReturn n) s = .next t
        ∧ t.line n = { restartedLine (s.line n) with main := .onHook }
        ∧ OtherLinesSame n s t ∧ OtherBlocksSame s t ∧ t.pool = s.pool
        ∧ Recorded [⟨some n, s.scan.sampleAt, .unblock .fault⟩] s t)
    ∧ ((s.line n).releaseDue = true →
      exec (.faultBlock n) s = .next s ∧ ∃ t, exec (.release n) s = .next t
        ∧ ((t.line n).main = .onHook → ∃ u, exec (.faultBlock n) t = .next u
          ∧ (u.line n).main = .blocked .fault ∧ (u.line n).adopted = (t.line n).adopted
          ∧ Recorded [⟨some n, s.scan.sampleAt, .block .fault⟩] t u))

/-- The adoption of a profile: the service field, the depth, the nominal estimate, the take-up state (R14, R34, R68,
R172). -/
def Obligations.AdoptionOfAProfile : Prop :=
  ∀ (p : Profile) (l : Line),
    let a := l.adopt p
    a.adopted = some p ∧ a.pendingProfile = none ∧ a.profileOutcome = .adopted ∧ a.adoptedEdition = l.profileEdition
      ∧ a.estimate = 16 * p.pNom
      ∧ (p.inService = false → a.main = .outOfService)
      ∧ (p.inService = true → a.main = if l.main = .outOfService then .onHook else l.main)
      ∧ (p.inService = false ∨ l.main = .outOfService →
          a.integrator = 0 ∧ a.loop = .opened ∧ a.phaseTimer = 0 ∧ a.faultRun = 0 ∧ a.clearRun = 0
            ∧ a.marginalRaised = false)
      ∧ (p.inService = true → l.main ≠ .outOfService →
          a.integrator = min l.integrator p.depth ∧ a.loop = l.loop ∧ a.phaseTimer = l.phaseTimer
            ∧ a.faultRun = l.faultRun ∧ a.clearRun = l.clearRun ∧ a.marginalRaised = l.marginalRaised)
      ∧ a.store = l.store ∧ a.digits = l.digits ∧ a.cls = l.cls ∧ a.attached = l.attached ∧ a.sticky = l.sticky
      ∧ a.causes = l.causes ∧ a.lastCauses = l.lastCauses ∧ a.requestEdition = l.requestEdition
      ∧ a.requestOutcome = l.requestOutcome

/-- The interdigit threshold: K × Pest / 128 rounded by the mode, clamped into T_id_min to T_id_max, which adoption has
ordered; the product is formed in full; a mode coded 3 is refused; the mode leaves the tracker as it is (R76, R78).
-/
def Obligations.InterdigitThreshold : Prop :=
  ∀ (p : Profile) (estimate : Nat), p.tidMin ≤ p.tidMax →
    let product := p.multiplier * estimate
    let rounded := match p.rounding with
      | .down => product / 128
      | .up => if product % 128 = 0 then product / 128 else product / 128 + 1
      | .nearest => if 64 ≤ product % 128 then product / 128 + 1 else product / 128
    (rounded < p.tidMin → thresholdOf p estimate = p.tidMin)
      ∧ (p.tidMax < rounded → thresholdOf p estimate = p.tidMax)
      ∧ (p.tidMin ≤ rounded → rounded ≤ p.tidMax → thresholdOf p estimate = rounded)
      ∧ (p.multiplier ≤ 63 → estimate ≤ 507904 → product ≤ 31997952 ∧ product / 128 ≤ 249984)
      ∧ (∀ ws : List Word, halfSum ws = 0 → byteAt ws 1 / 64 = 3 → ∃ f, checkProfile ws = .badField f)
      ∧ (∀ (ws : List Word) (q : Profile), checkProfile ws = .good q → q.tidMin ≤ q.tidMax)
      ∧ (∀ r period, track { p with rounding := r } period estimate = track p period estimate)

/-- The numbering of a dial: DIRECT, INVERSE and OFFSET for the counts 1 to 10, always a digit from 0 to 9; no key for
11 to 15; an unknown numbering is refused at adoption (R57, R58). -/
def Obligations.NumberingOfADial : Prop :=
  (∀ n : Nat, 1 ≤ n → n ≤ 10 →
    (digitKey .direct n).map (·.val) = some (if n = 10 then 0 else n)
      ∧ (digitKey .inverse n).map (·.val) = some (10 - n)
      ∧ (digitKey .offset n).map (·.val) = some (n - 1)
      ∧ ∀ m k, digitKey m n = some k → k.val ≤ 9)
    ∧ (∀ n m, 11 ≤ n → n ≤ 15 → digitKey m n = none)
    ∧ (∀ (p : Profile) m ev l, flashKeys { p with numbering := m } = flashKeys p
        ∧ numberKeys { p with numbering := m } ev l = numberKeys p ev l)
    ∧ (∀ ws : List Word, halfSum ws = 0 → byteAt ws 2 % 4 = 3 → ∃ f, checkProfile ws = .badField f)

/-- The Plan Matcher's evaluation of c call digits: which entries are live and hold, which is selected, when it is
blocked (R104). Positions of the table that hold no valid entry play no part. -/
def Obligations.PlanEvaluation : Prop :=
  ∀ (table : List PlanPosition) (digits : List Key), digits ≠ [] →
    let agrees (e : PlanEntry) : Prop := ∀ j, j < min digits.length e.prefixKeys.length →
      ∀ k, e.prefixKeys[j]? = some (some k) → digits[j]? = some k
    let entry (i : Nat) (e : PlanEntry) : Prop := table[i]? = some (.valid e)
    let holding (i : Nat) (e : PlanEntry) : Prop := entry i e ∧ agrees e ∧ e.prefixKeys.length ≤ digits.length
    let ev := evaluate table digits
    (ev.live = true ↔ ∃ i e, entry i e ∧ agrees e)
      ∧ (∀ i e, ev.selected = some (i, e) ↔ holding i e
          ∧ ∀ j f, holding j f → f.prefixKeys.length < e.prefixKeys.length
              ∨ f.prefixKeys.length = e.prefixKeys.length ∧ i ≤ j)
      ∧ (ev.selected = none ↔ ¬ ∃ i e, holding i e)
      ∧ (ev.blocked = true ↔ ∃ i e j f, ev.selected = some (i, e) ∧ entry j f ∧ agrees f
          ∧ digits.length < f.prefixKeys.length ∧ e.prefixKeys.length < f.prefixKeys.length)
      ∧ (∀ i e more, holding i e → (evaluate table (digits ++ more)).live = true)
      ∧ ((∀ i e, entry i e → e.prefixKeys.length ≤ 8) → 8 ≤ digits.length → ev.blocked = false)

/-! ## The Sender Pool and the Highway Interface -/

/-- The joining test: a line that may join gets the lowest-numbered FREE sender at once, ON with its burst not begun in
LOCKED and PAUSED otherwise; with no sender FREE it joins the tail of the entries of its class, the others keeping
their places: the list stays in the order of class and joining time, and its joining time is later than every other's
(R126, R127, R130, R131). The premises are invariants of the model, and the test keeps them; where every other line that
should wait does, every line then does (R127). -/
def Obligations.JoiningTestGrants : Prop :=
  ∀ (n : LineNo) (s : State), PoolLaws s → ArbiterLaw s →
    (s.line n).main = .collecting ∨ (s.line n).main = .through → (s.line n).store ≠ [] → (s.line n).attached = none →
    (∀ e ∈ s.pool.waitList, e.line ≠ n) →
    let othersWait := ∀ m, m ≠ n → (s.line m).main = .collecting ∨ (s.line m).main = .through → (s.line m).store ≠ [] →
      (s.line m).attached = none → ∃ e ∈ s.pool.waitList, e.line = m
    (∀ k, (s.sender k).state = .free → (∀ j, j < k → (s.sender j).state ≠ .free) →
      let t := joinTest n s
      PoolLaws t ∧ ArbiterLaw t ∧ (othersWait → WaitLaw t) ∧ t.line n = { s.line n with attached := some k } ∧ OtherLinesSame n s t
        ∧ t.pool.waitList = [] ∧ t.clk = s.clk
        ∧ (∀ j, j ≠ k → t.sender j = s.sender j)
        ∧ Granted false k n t)
    ∧ ((∀ k, (s.sender k).state ≠ .free) →
      let t := joinTest n s
      PoolLaws t ∧ ArbiterLaw t ∧ (othersWait → WaitLaw t) ∧ t.lines = s.lines ∧ (∀ k, t.sender k = s.sender k)
        ∧ t.pool.waitList.filter (fun e => e.line != n) = s.pool.waitList
        ∧ ∃ e ∈ t.pool.waitList, e.line = n ∧ e.joined = s.pool.joins
            ∧ ∃ before after, t.pool.waitList = before ++ e :: after ∧ before ++ after = s.pool.waitList
              ∧ (∀ f ∈ before, (s.line f.line).cls = .urgent ∨ (s.line n).cls = .normal)
              ∧ (∀ f ∈ after, (s.line f.line).cls = .normal ∧ (s.line n).cls = .urgent))

/-- A burst begins at the tick boundary after a grant with the head key, phases and timer 0; it expires at T_on and the
sender enters GAP (R133, R134, R152). In frame 0 of a tick under a locked clock the first sample is accounted at once
(assumption log 10): the line's slot carries 0, the sample of phase 0 or of silence, and every other slot keeps what it
was composed with (R148, R150). A flush mark set before the first boundary stays set (R138). A frame that is not driven,
the one that loses the reference, is not touched (R156). -/
def Obligations.BurstsBeginAndExpire : Prop :=
  ∀ (k : SenderNo) (n : LineNo) (s : State), s.part.phase = .working → (s.sender k).line = some n →
    (s.sender k).state = .on →
    ((s.sender k).begun = false → (s.sender k).burstDue = true →
      ∃ t, exec (.burstStart k) s = .next t
        ∧ OtherSame k s t ∧ t.lines = s.lines
        ∧ (t.sender k).state = .on ∧ (t.sender k).begun = true ∧ (t.sender k).timer = 0
        ∧ (t.sender k).key = (s.line n).store.head?.map (·.key) ∧ (t.sender k).line = some n
        ∧ (t.sender k).keysSent = (s.sender k).keysSent
        ∧ (t.sender k).flushMark = (s.sender k).flushMark ∧ (t.sender k).resendMark = (s.sender k).resendMark
        ∧ (¬ (s.clk.state = .locked ∧ s.clk.frame = 0) ∨ (∀ m : LineNo, s.hwy.xtxd[m] = none) →
            (t.sender k).accLow = 0 ∧ (t.sender k).accHigh = 0 ∧ t.hwy = s.hwy)
        ∧ (s.clk.state = .locked → s.clk.frame = 0 → (∀ m : LineNo, s.hwy.xtxd[m] ≠ none) →
            (∀ key, (t.sender k).key = some key →
              (t.sender k).accLow = lowIncrement key ∧ (t.sender k).accHigh = highIncrement key)
            ∧ ((s.line n).attached = some k → t.hwy.xtxd[n] = some 0)
            ∧ ∀ m : LineNo, m ≠ n → t.hwy.xtxd[m] = s.hwy.xtxd[m]))
    ∧ (∀ p, (s.line n).adopted = some p → (s.sender k).begun = true → p.tOn ≤ (s.sender k).timer →
      ∃ t, exec (.burstExpiry k) s = .next t
        ∧ OtherSame k s t ∧ t.lines = s.lines
        ∧ t.sender k = { s.sender k with state := .gap, timer := 0, begun := false, burstDue := false }
        ∧ (¬ (s.clk.state = .locked ∧ s.clk.frame = 0) ∨ (∀ m : LineNo, s.hwy.xtxd[m] = none) → t.hwy = s.hwy)
        ∧ (s.clk.state = .locked → s.clk.frame = 0 → (∀ m : LineNo, s.hwy.xtxd[m] ≠ none) →
            ((s.line n).attached = some k → t.hwy.xtxd[n] = some 0)
            ∧ ∀ m : LineNo, m ≠ n → t.hwy.xtxd[m] = s.hwy.xtxd[m]))

/-- A gap that expires: with the resend mark the head key is sent again; otherwise the head key leaves the store and
counts as sent, and the next burst begins, or, with the store empty, the sender is freed with a SEND_DONE record,
EMPTY or FLUSHED, and goes to the head of the wait list when lines wait, its burst due at this boundary in LOCKED (R130,
R131, R135, R138, R142). The sender stays the line's own when the store holds more. In frame 0 of a tick under
a locked clock the slot of the line carries what its path then gives, from the frame's own delayed sample, a line granted
the sender carries 0, and every other slot keeps what it was composed with (R146 to R150; assumption log 10). A frame that
is not driven, the one that loses the reference, is not touched (R156). In PAUSED nothing expires (R140): an expiry on the
boundary of a loss is taken before it, inside FILLED_FRAME, or not at all (assumption log 11). A journal sequence so asked
for stands behind the boundary's visit (assumption log 24). -/
def Obligations.GapsExpire : Prop :=
  (∀ (k : SenderNo) (n : LineNo) (p : Profile) (s : State), s.part.phase = .working → (s.sender k).line = some n →
    (s.line n).adopted = some p → (s.sender k).state = .gap → p.tOff ≤ (s.sender k).timer →
    ∃ t, exec (.gapExpiry k) s = .next t
      ∧ t.part = s.part ∧ t.regs = s.regs ∧ t.scan = s.scan ∧ t.plan = s.plan ∧ t.clk = s.clk ∧ t.mem = s.mem
      ∧ t.hwy.delay = s.hwy.delay ∧ t.hwy.slot = s.hwy.slot ∧ t.hwy.delayed = s.hwy.delayed
      ∧ (¬ (s.clk.state = .locked ∧ s.clk.frame = 0) ∨ (∀ m : LineNo, s.hwy.xtxd[m] = none) → t.hwy = s.hwy)
      ∧ (s.clk.state = .locked → s.clk.frame = 0 → (∀ m : LineNo, s.hwy.xtxd[m] ≠ none) →
          (∀ m : LineNo, m ≠ n → t.hwy.xtxd[m]
            = if (t.line m).attached = (s.line m).attached then s.hwy.xtxd[m] else some 0)
          ∧ ((s.line n).attached = some k → (∀ e ∈ s.pool.waitList, e.line ≠ n) →
              ((t.line n).attached ≠ none ∨ Muted p (s.line n) → t.hwy.xtxd[n] = some 0)
                ∧ ((t.line n).attached = none → ¬ Muted p (s.line n) → t.hwy.xtxd[n] = some s.hwy.delayed[n])))
      ∧ ((s.sender k).resendMark = true →
          t.lines = s.lines ∧ Recorded [] s t ∧ OtherSame k s t ∧ (t.sender k).state = .on ∧ (t.sender k).begun = true
            ∧ (t.sender k).timer = 0 ∧ (t.sender k).resendMark = false
            ∧ (t.sender k).key = (s.line n).store.head?.map (·.key)
            ∧ (t.sender k).keysSent = (s.sender k).keysSent ∧ (t.sender k).flushMark = (s.sender k).flushMark)
      ∧ ((s.sender k).resendMark = false → (s.line n).store.drop 1 ≠ [] →
          t.line n = { s.line n with store := (s.line n).store.drop 1 } ∧ OtherLinesSame n s t ∧ Recorded [] s t
            ∧ OtherSame k s t ∧ (t.sender k).state = .on ∧ (t.sender k).begun = true ∧ (t.sender k).timer = 0
            ∧ (t.sender k).key = ((s.line n).store.drop 1).head?.map (·.key)
            ∧ (t.sender k).keysSent = min ((s.sender k).keysSent + 1) 65535 ∧ (t.sender k).flushMark = false)
      ∧ ((s.sender k).resendMark = false → (s.line n).store.drop 1 = [] → (∀ e ∈ s.pool.waitList, e.line ≠ n) →
          t.line n = { s.line n with store := [], attached := none } ∧ OtherLinesSameButSenders n s t
            ∧ (s.pool.waitList = [] → (t.sender k).state = .free ∧ (t.sender k).line = none)
            ∧ FreedGoesOn true k n s t
            ∧ (∀ j, j ≠ k → (s.sender j).state ≠ .free → t.sender j = s.sender j)
            ∧ Recorded [⟨some n, s.now, .sendDone k (min ((s.sender k).keysSent + 1) 65535)
                (if (s.sender k).flushMark = true then .flushed else .empty)⟩] s t))
  ∧ ∀ (k : SenderNo) (s : State), (s.sender k).state = .paused → exec (.gapExpiry k) s = .next s

/-- A line-side slot is taken in channel order into its delay line, the oldest sample leaving it (R144, R146); a slot
out of turn is no event (assumption log 2). -/
def Obligations.LineSlotsEnterTheDelay : Prop :=
  ∀ (channel : LineNo) (sample : Sample) (s : State), s.part.phase = .working →
    (s.hwy.slot = channel.val → ∃ t, exec (.lineSlotReceived channel sample) s = .next t
      ∧ t = { s with hwy := t.hwy } ∧ t.hwy.slot = channel.val + 1 ∧ t.hwy.xtxd = s.hwy.xtxd
      ∧ t.hwy.delayed = s.hwy.delayed
      ∧ t.hwy.delay[channel] = s.hwy.delay[channel].drop 1 ++ [sample]
      ∧ ∀ m : LineNo, m ≠ channel → t.hwy.delay[m] = s.hwy.delay[m])
    ∧ (s.hwy.slot ≠ channel.val → exec (.lineSlotReceived channel sample) s = .next s)

/-- What a driven slot carries: tone from an attached sender in a burst and 0 between bursts, 0 under MUTE, otherwise
the delayed sample, and so for a line with no adopted profile (R149); a tone value is the saturated sum of the two
components of R154, never −32768 (R146 to R151, R154). The sine table: every entry is 32767 × sin(2πi / 256) to the nearest
whole number (R153), odd-symmetric, its landmark values as R153 gives them, and within 32767 of 0; each key's pair of
increments as R151 tables it. -/
def Obligations.DrivenSlotsAndTones : Prop :=
  (∀ (n : LineNo) (s : State),
    let l := s.line n
    (∀ k p, l.attached = some k → l.adopted = some p →
      ((s.sender k).state = .on → (s.sender k).begun = true → (s.sender k).timer < p.tOn →
        let component (a : Nat) (phase : BitVec 16) : Int := ((a : Int) * sineEntry (phase.toNat / 256)).fdiv 32768
        let sum := component p.aLow (s.sender k).accLow + component p.aHigh (s.sender k).accHigh
        outputSample s n = BitVec.ofInt 16 (if sum < -32767 then -32767 else if 32767 < sum then 32767 else sum)
          ∧ outputSample s n ≠ 0x8000)
      ∧ ((s.sender k).state ≠ .on ∨ (s.sender k).begun = false ∨ p.tOn ≤ (s.sender k).timer → outputSample s n = 0))
    ∧ (∀ p, l.attached = none → l.adopted = some p →
        (Muted p l → outputSample s n = 0) ∧ (¬ Muted p l → outputSample s n = s.hwy.delay[n].headD 0))
    ∧ (l.attached = none → l.adopted = none → outputSample s n = s.hwy.delay[n].headD 0))
    ∧ (∀ i : Nat, i < 256 → |32767 * Real.sin (2 * Real.pi * i / 256) - sineEntry i| ≤ 1 / 2)
    ∧ ((∀ i : Nat, 1 ≤ i → i ≤ 127 → sineEntry (256 - i) = -sineEntry i)
    ∧ sineEntry 0 = 0 ∧ sineEntry 32 = 23170 ∧ sineEntry 64 = 32767 ∧ sineEntry 96 = 23170 ∧ sineEntry 128 = 0
    ∧ sineEntry 160 = -23170 ∧ sineEntry 192 = -32767 ∧ sineEntry 224 = -23170
    ∧ (∀ i : Nat, i < 256 → -32767 ≤ sineEntry i ∧ sineEntry i ≤ 32767)
    ∧ (List.finRange 16).map lowIncrement
        = [7709, 5710, 5710, 5710, 6308, 6308, 6308, 6980, 6980, 6980, 7709, 7709, 5710, 6308, 6980, 7709]
    ∧ (List.finRange 16).map highIncrement
        = [10945, 9904, 10945, 12100, 9904, 10945, 12100, 9904, 10945, 12100, 9904, 12100, 13378, 13378, 13378, 13378])

/-! ## The port -/

/-- With no sequence in flight the oldest request is served: a journal sequence, the visit of the line at the sweep
position, or the header visit at 96; the bus is then granted, and each restarts the count of boundaries (R161, R162,
R218). -/
def Obligations.SequencesStartAndAreGranted : Prop :=
  ∀ s : State, s.part.phase = .working →
    (∀ r rest, s.arc.port = .running → s.arc.inFlight = none → s.arc.queue = r :: rest →
      ∃ q, exec .sequenceStart s
          = .next { s with arc := { s.arc with queue := rest, inFlight := some q, busWait := 0 } }
        ∧ q.stage = .reading ∧ q.granted = false ∧ q.base = s.arc.base ∧ q.got = [] ∧ q.written = 0 ∧ q.out = none
        ∧ (r = .journal → q.kind = .journal)
        ∧ (∀ i : LineNo, r = .visit → s.arc.sweep.val = i.val → q.kind = .lineVisit i)
        ∧ (r = .visit → s.arc.sweep.val = 96 → q.kind = .headerVisit))
    ∧ (∀ q, s.arc.inFlight = some q → q.granted = false →
      exec .busGrant s
        = .next { s with arc := { s.arc with inFlight := some { q with granted := true }, busWait := 0 } })

/-- Reads of a sequence: the address on the bus, and the word taken; the last read ends the reading stage, or, in
STARTING after a HALT, takes the port to IDLE (R159, R164, R179, R181, R195, R215, R218). That an address wraps modulo
2^32, whatever the base, is the model's choice (assumption log 4): no rule states it. -/
def Obligations.ReadsOfASequence : Prop :=
  ∀ (data : Word) (q : Sequence) (s : State), s.part.phase = .working → s.arc.inFlight = some q → q.granted = true →
    q.stage = .reading ∨ q.stage = .planReading →
    let start : Word := if q.stage = .planReading then q.planAddress else match q.kind with
      | .starting => q.base
      | .lineVisit n => q.base + BitVec.ofNat 32 (48 + 64 * n.val)
      | .headerVisit => q.base + 8
      | .journal => q.base + 12
    let got := q.got ++ [data]
    let wanted : Nat := if q.stage = .planReading then 2 * min ((got.headD 0).toNat % 256) 64 + 2 else match q.kind with
      | .starting => 4
      | .lineVisit _ => 10
      | .headerVisit => 5
      | .journal => 1
    busAddress s = some (start + BitVec.ofNat 32 (4 * q.got.length)) ∧ busWriting s = some false
      ∧ ∃ t, exec (.transferDone data) s = .next t
        ∧ t = { s with arc := t.arc } ∧ t.arc.busWait = 0 ∧ t.arc.queue = s.arc.queue ∧ t.arc.base = s.arc.base
        ∧ t.arc.sweep = s.arc.sweep ∧ t.arc.planTakenUp = s.arc.planTakenUp
        ∧ (got.length < wanted → t.arc.inFlight = some { q with got := got } ∧ t.arc.port = s.arc.port)
        ∧ (wanted ≤ got.length → ¬ (q.kind = .starting ∧ s.arc.haltTaken = true) →
            t.arc.inFlight = some { q with got := got, stage := if q.stage = .reading then .readDone else .planReadDone }
              ∧ t.arc.port = s.arc.port)
        ∧ (wanted ≤ got.length → q.kind = .starting → s.arc.haltTaken = true →
            t.arc.inFlight = none ∧ t.arc.port = .idle)

/-- Writes of a sequence: the word stored at the address on the bus, least significant byte lowest, every other byte as
it was; a report or header not composed yet is composed before its first word (00 Shared memory; R159, R164, R178,
R179, R189, R195). That such words are composed at the completion of their first write is the model's choice (assumption
log 6), and so is the wrap of an address (4). -/
def Obligations.WritesOfASequence : Prop :=
  ∀ (data : Word) (q : Sequence) (s : State), s.part.phase = .working → s.arc.inFlight = some q → q.granted = true →
    q.stage = .writing →
    let words := match q.out with
      | some ws => ws
      | none => composeWords q s
    let a := writeAddress s.jnl q q.written
    busAddress s = some a ∧ busWriting s = some true
      ∧ (∀ n, q.kind = .lineVisit n → a = q.base + BitVec.ofNat 32 (48 + 64 * n.val + 40 + 4 * q.written))
      ∧ (q.kind = .headerVisit → a = q.base + BitVec.ofNat 32 (32 + 4 * q.written))
      ∧ (q.kind = .journal → 4 * q.count ≤ q.written → a = q.base + 28)
      ∧ (q.kind = .journal → q.written < 4 * q.count → a = s.jnl.base
          + BitVec.ofNat 32 (16 * ((s.jnl.head + q.written / 4) % s.jnl.slots) + 4 * (q.written % 4)))
      ∧ ∃ t, exec (.transferDone data) s = .next t
        ∧ t = { s with arc := t.arc, mem := t.mem }
        ∧ t.arc = { s.arc with busWait := 0, inFlight := some { q with
            out := some words, written := q.written + 1
            stage := if q.written + 1 < words.length then .writing else .writeDone } }
        ∧ t.mem.readWord a = some (words.getD q.written 0)
        ∧ (∀ i : Nat, i < 4 → t.mem.readByte (a + BitVec.ofNat 32 i).toNat = some (byteOf (words.getD q.written 0) i))
        ∧ (∀ b : Nat, (∀ i : Nat, i < 4 → b ≠ (a + BitVec.ofNat 32 i).toNat) → t.mem.readByte b = s.mem.readByte b)

/-- A transfer that fails, or two tick boundaries passed waiting on the bus: the sequence is abandoned, the port enters
FAULTED with the fault code and the FAULT bit, queued requests withdrawn (R161, R194, R216, R218). The model's
own choices: a write so abandoned leaves memory as it was (assumption log 23), and a BUS_TIMEOUT commanded before two
boundaries have passed does nothing (assumption log 2). -/
def Obligations.BusFaults : Prop :=
  ∀ (q : Sequence) (s : State), s.part.phase = .working → s.arc.inFlight = some q →
    q.stage = .reading ∨ q.stage = .planReading ∨ q.stage = .writing →
    let faulted (code : FaultCode) : State := { s with
      regs := { s.regs with faultCode := code, attention := s.regs.attention ||| 4 }
      arc := { s.arc with port := .faulted, haltTaken := false, queue := [], inFlight := none, busWait := 0 }
      jnl := { s.jnl with holdOff := false, holdOffDue := false } }
    (q.granted = true → ∀ withDone, exec (.busError withDone) s = .next (faulted .busError))
      ∧ (2 ≤ s.arc.busWait → exec .busTimeout s = .next (faulted .busTimeout))
      ∧ (s.arc.busWait < 2 → exec .busTimeout s = .next s)

/-- The profile step of a line take-up whose request edition is the one acknowledged: nothing under a known profile
edition; otherwise the check, the refusal, deferral or adoption, and one PROFILE record; the visit then writes its
report, laid out as R186 gives (R164 to R166, R171 to R174, R178, R186). The check of a profile's eight words: the sum of
their sixteen halves is 0 (R168), then the first of the seventeen checks of R170 that fails refuses the profile with its
field number, on values decoded (R167), clamped (R169) and placed as R186 gives, which are then the profile. Whether the
report is composed in this step composeNow says (assumption log 6); the head key and origin fields of an empty store are 0
(22). -/
def Obligations.LineTakeUpProfile : Prop :=
  (∀ (composeNow : Bool) (n : LineNo) (q : Sequence) (s : State), s.part.phase = .working →
    s.arc.inFlight = some q → q.kind = .lineVisit n → q.stage = .readDone →
    (s.line n).requestEdition = some (byteOf (q.got.getD 0 0) 1) →
    let l := s.line n
    let edition := byteOf (q.got.getD 0 0) 0
    let seen := { l with profileEdition := some edition }
    let refused (o : ProfileOutcome) : Line := { seen with profileOutcome := o, pendingProfile := none }
    let after : Line := if l.profileEdition = some edition then l else match checkProfile (q.got.drop 2) with
      | .badCheck => refused .rejectedCheck
      | .badField f => refused (.rejectedField f)
      | .good p =>
        if l.main = .seizing ∨ l.main = .collecting ∨ l.main = .through ∨ l.main = .suspended
        then { seen with pendingProfile := some p, profileOutcome := .deferred }
        else seen.adopt p
    ∃ t, exec (.lineTakeUp composeNow) s = .next t
      ∧ t.line n = after ∧ OtherLinesSame n s t ∧ t.pool = s.pool ∧ OtherBlocksSame s t
      ∧ t.jnl = (if l.profileEdition = some edition then s.jnl
          else s.jnl.stage ⟨some n, s.now, .profile edition after.profileOutcome⟩)
      ∧ t.arc.inFlight = some { q with
          visitTime := s.now, stage := .writing, written := 0
          out := if composeNow then some (reportWords after s.now) else none })
  ∧ ([MainState.outOfService, .blocked .admin, .blocked .fault, .onHook, .seizing, .collecting, .through, .suspended].map
        MainState.code = [0, 1, 1, 2, 3, 4, 5, 6]
    ∧ [ProfileOutcome.adopted, .deferred, .rejectedCheck, .rejectedField 9].map ProfileOutcome.code = [0, 1, 2, 3]
    ∧ [RequestOutcome.done, .wrongState, .noRoom, .badOperand, .unknownRequest].map RequestOutcome.code = [0, 1, 2, 3, 4]
    ∧ [SubState.idle, .brk, .make].map SubState.code = [0, 1, 2]
    ∧ [PathState.pass, .mute, .tone].map PathState.code = [0, 1, 2]
    ∧ [Origin.dialled, .flash, .endKey, .injected].map Origin.code = [0, 1, 2, 3])
  ∧ (∀ ws : List Word, ws.length = 8 →
    let b (i : Nat) : Nat := (ws.getD (i / 4) 0).toNat / 256 ^ (i % 4) % 256
    let half (i : Nat) : Nat := b (2 * i) + 256 * b (2 * i + 1)
    let ticks (i : Nat) : Nat := if b i / 32 < 6 then b i % 32 * 4 ^ (b i / 32) else 31744
    let limit (lo hi v : Nat) : Nat := if v < lo then lo else if hi < v then hi else v
    let mapping := b 0 / 8
    let policy := b 1 / 16 % 4
    let rounding := b 1 / 64
    let numbering := b 2 % 4
    let sending := b 2 / 4 % 4
    let after := b 2 / 16 % 4
    let action := b 2 / 64
    let bMin := ticks 11
    let bMax := ticks 12
    let fMax := ticks 14
    let rel := ticks 15
    checkProfile ws =
      if ((List.range 16).map half).sum % 65536 ≠ 0 then .badCheck
      else if 16 ≤ mapping ∧ mapping ≤ 30 then .badField 1
      else if policy = 3 then .badField 2
      else if rounding = 3 then .badField 3
      else if numbering = 3 then .badField 4
      else if sending = 2 ∨ sending = 3 then .badField 5
      else if after = 2 ∨ after = 3 then .badField 6
      else if action = 2 ∨ action = 3 then .badField 7
      else if 100 < b 6 then .badField 9
      else if b 6 < b 5 then .badField 8
      else if bMax < bMin then .badField 10
      else if rel ≤ bMax then .badField 12
      else if fMax ≠ 0 ∧ (fMax ≤ bMax ∨ rel ≤ fMax) then .badField 11
      else if ticks 17 = 0 then .badField 13
      else if ticks 16 < ticks 17 then .badField 14
      else if ticks 18 < ticks 16 then .badField 15
      else if ticks 20 < ticks 19 then .badField 16
      else if ticks 22 = 0 then .badField 17
      else .good {
        inService := decide (b 0 % 2 = 1)
        muteEnable := decide (b 0 / 2 % 2 = 1)
        flashRestart := decide (b 0 / 4 % 2 = 1)
        flashMapping := if mapping = 31 then none else some (Fin.ofNat 16 mapping)
        depth := limit 1 8 (b 1 % 16)
        marginalPolicy := if policy = 0 then .hold else if policy = 1 then .asOpen else .asClosed
        rounding := if rounding = 0 then .nearest else if rounding = 1 then .down else .up
        numbering := if numbering = 0 then .direct else if numbering = 1 then .inverse else .offset
        sendingMode := if sending = 0 then .overlap else .enBloc
        afterCompletion := if after = 0 then .forward else .ignore
        unmatchedAction := if action = 0 then .completeNow else .atTimeout
        multiplier := limit 8 63 (b 3 % 64)
        gain := limit 1 4 (b 4 % 8)
        endKey := Fin.ofNat 16 (b 4 / 16)
        ratioLo := b 5
        ratioHi := b 6
        trapMask := BitVec.ofNat 9 (b 7 + 256 * (b 8 % 2))
        faultPersistence := ticks 9
        guard := ticks 10
        bMin := bMin
        bMax := bMax
        mMin := ticks 13
        fMax := fMax
        rel := rel
        pNom := ticks 16
        pLo := ticks 17
        pHi := ticks 18
        tidMin := ticks 19
        tidMax := ticks 20
        tComplete := ticks 21
        tOn := ticks 22
        tOff := ticks 23
        aLow := limit 0 32767 (half 12)
        aHigh := limit 0 32767 (half 13) })
  ∧ ∀ (l : Line) (visit : DevTime), l.profileOutcome.field < 32 → l.pulses < 16 → l.digits.length < 32 →
    l.estimate < 2 ^ 19 → l.store.length < 64 → visit.tick < 2048 →
    ∃ w0 w1 w2 w3 w4 w5, reportWords l visit = [w0, w1, w2, w3, w4, w5]
      ∧ Holds w0 [((l.profileEdition.getD 0).toNat, 0, 8), (l.profileOutcome.code, 8, 2), (l.profileOutcome.field, 10, 5),
          (if l.adoptedEdition = none then 0 else 1, 15, 1), ((l.adoptedEdition.getD 0).toNat, 16, 8),
          ((l.requestEdition.getD 0).toNat, 24, 8)]
      ∧ Holds w1 [(l.requestOutcome.code, 0, 3), (l.main.code, 3, 3), (if l.main = .blocked .fault then 1 else 0, 6, 1),
          (if l.cls = .urgent then 1 else 0, 7, 1), (l.sub.code, 8, 2), (l.path.code, 10, 2), (l.pulses, 12, 4),
          (l.digits.length, 16, 5),
          (if l.resumeTarget = some .through then 2 else if l.resumeTarget = some .collecting then 1 else 0, 21, 2),
          (match l.attached with
            | some k => k.val
            | none => 31, 24, 5)]
      ∧ Holds w2 [(l.estimate, 0, 19), (l.store.length, 24, 6)]
      ∧ Holds w3 [(match l.store with
            | x :: _ => x.key.val
            | [] => 0, 0, 4),
          (match l.store with
            | x :: _ => x.origin.code
            | [] => 0, 4, 2), (if l.store = [] then 0 else 1, 6, 1), (l.sticky.toNat, 8, 9), (l.lastCauses.toNat, 20, 9)]
      ∧ w4 = visit.seconds ∧ Holds w5 [(visit.tick, 0, 11)]

/-- A line take-up runs the request its descriptor codes, on the line as the profile step leaves it: every block ends as the
request's own row leaves it (R164, R174 to R176; assumption log 3), but that the visit goes on to its writes, dated to the
take-up, its report composed from the line after the request (R164, R178), in this step where composeNow says so (assumption
log 6). -/
def Obligations.LineTakeUpRequest : Prop :=
  ∀ (composeNow : Bool) (n : LineNo) (q : Sequence) (s : State), s.part.phase = .working →
    s.arc.inFlight = some q → q.kind = .lineVisit n → q.stage = .readDone →
    let w := q.got.getD 0 0
    let keys := q.got.getD 1 0
    let edition := byteOf w 1
    let code := (byteOf w 2).toNat
    let row : Instr :=
      if code = 0 then .requestNone n edition
      else if code = 1 then .inject n edition (byteOf w 3) keys
      else if code = 2 then .flush n edition
      else if code = 3 then .endNumber n edition
      else if code = 4 then .resume n edition
      else if code = 5 then .clearFlags n edition
      else if code = 6 then .block n edition
      else if code = 7 then .unblock n edition
      else if code = 8 then .resetSpeed n edition
      else .unknownRequest n edition (byteOf w 2)
    ∃ t u, exec (.lineTakeUp composeNow) s = .next t
      ∧ exec row (profileStep n (byteOf w 0) (q.got.drop 2) s.now s) = .next u
      ∧ t = { u with arc := { u.arc with inFlight := some { q with
          visitTime := s.now, stage := .writing, written := 0
          out := if composeNow then some (reportWords (u.line n) s.now) else none } } }
      ∧ t.mem = s.mem

/-- The last write of a visit: the sweep position goes on, from 96 and after a header visit back to 0, and the sequence
ends; a HALTING port is then IDLE, and otherwise the waiting requests stay and a journal sequence is asked for when one is
wanted (R162, R164, R179, R194, R215). -/
def Obligations.VisitsComplete : Prop :=
  ∀ (q : Sequence) (s : State), s.part.phase = .working → s.arc.inFlight = some q → q.stage = .writeDone →
    let ended (sweep : Nat) (t : State) : Prop :=
      t.arc.inFlight = none ∧ t.arc.busWait = 0 ∧ t.arc.sweep.val = sweep
        ∧ (s.arc.port = .halting → t.arc.port = .idle ∧ t.arc.queue = s.arc.queue)
        ∧ (s.arc.port ≠ .halting → t.arc.port = s.arc.port
            ∧ t.arc.queue = s.arc.queue ++ (if s.arc.port = .running ∧ (s.jnl.staging ≠ [] ∨ s.jnl.publish = true)
                ∧ PortRequest.journal ∉ s.arc.queue ∧ s.jnl.holdOff = false then [.journal] else []))
        ∧ t = { s with arc := t.arc }
    (∀ n, q.kind = .lineVisit n → ∃ t, exec .visitComplete s = .next t
        ∧ ended (if s.arc.sweep.val < 96 then s.arc.sweep.val + 1 else 0) t)
      ∧ (q.kind = .headerVisit → ∃ t, exec .headerVisitComplete s = .next t ∧ ended 0 t)

/-- A header take-up hands over the wake count, the release index when it is in span, and a time setting under a new
edition, a rollover that is due taken first; then a plan load begins under a new plan edition, and otherwise the
header words are written, laid out as R185 gives (R179, R180, R182, R183, R185, R196, R212; assumption logs 6, 7; an
edition field whose mark is clear is 0, log 22). -/
def Obligations.HeaderTakeUpHandsOver : Prop :=
  (∀ (composeNow : Bool) (q : Sequence) (s : State), s.part.phase = .working → s.arc.inFlight = some q →
    q.kind = .headerVisit → q.stage = .readDone →
    let release := (q.got.getD 1 0).toNat % 65536
    let edition := byteOf (q.got.getD 3 0) 0
    let timeEdition := byteOf (q.got.getD 3 0) 1
    let j := s.jnl
    let inSpan := release < j.slots
      ∧ (release + j.slots - j.heldRelease) % j.slots ≤ (j.head + j.slots - j.heldRelease) % j.slots
    ∃ t, exec (.headerTakeUp composeNow) s = .next t
      ∧ t = { s with arc := t.arc, jnl := t.jnl, clk := t.clk } ∧ t.now = s.now
      ∧ t.jnl = { j with
          wakeCount := (q.got.getD 0 0).toNat % 65536, heldRelease := if inSpan then release else j.heldRelease }
      ∧ t.clk = (if s.clk.timeTakenUp = some timeEdition then s.clk.settle
          else { s.clk.settle with
            timeTakenUp := some timeEdition, pendingTime := some ⟨q.got.getD 4 0, timeEdition⟩ })
      ∧ t.arc.planTakenUp = s.arc.planTakenUp ∧ t.arc.port = s.arc.port ∧ t.arc.queue = s.arc.queue
      ∧ (s.arc.planTakenUp ≠ some edition → t.arc.inFlight = some { q with
          stage := .planReading, got := [], planEdition := edition, planAddress := q.got.getD 2 0 &&& 0xFFFFFFFC })
      ∧ (s.arc.planTakenUp = some edition → t.arc.inFlight = some { q with
          stage := .writing, written := 0, out := if composeNow then some (headerWords t) else none }))
  ∧ ∀ s : State, s.arc.loadIgnored < 128 → s.now.tick < 2048 →
    ∃ w0 w1 w2 w3, headerWords s = [w0, w1, w2, w3]
      ∧ Holds w0 [((s.arc.planTakenUp.getD 0).toNat, 0, 8), (if s.arc.loadOutcome = .rejectedCheck then 1 else 0, 8, 1),
          (if s.plan.edition = none then 0 else 1, 15, 1), (s.arc.loadIgnored, 16, 7), ((s.plan.edition.getD 0).toNat, 24, 8)]
      ∧ Holds w1 [((s.clk.settle.timeAdopted.getD 0).toNat, 0, 8),
          (match s.clk.state with
            | .free => 0
            | .qualifying => 1
            | .locked => 2
            | .holdover => 3, 8, 2), (if s.clk.settle.timeAdopted = none then 0 else 1, 16, 1)]
      ∧ w2 = s.now.seconds ∧ Holds w3 [(s.now.tick, 0, 11)]

/-- A plan load's outcome: with a good check the 64 positions, the edition and the ignored count are swapped in at once;
with a bad one they stay; either way the edition is taken up and one PLAN record handed over (R100 to R102, R181,
R182). An entry's two words give a vacant position, an ignored one or a valid entry as R101 and R187 say. Whether the header
words are composed in this step composeNow says (assumption log 6). -/
def Obligations.PlanLoadOutcomes : Prop :=
  (∀ (composeNow : Bool) (q : Sequence) (s : State), s.part.phase = .working → s.arc.inFlight = some q →
    q.kind = .headerVisit → q.stage = .planReadDone →
    let count := min ((q.got.getD 0 0).toNat % 256) 64
    q.got.length = 2 * count + 2 →
    ∃ t, exec (.planLoadOutcome composeNow) s = .next t
      ∧ t = { s with arc := t.arc, jnl := t.jnl, plan := t.plan }
      ∧ t.arc.planTakenUp = some q.planEdition
      ∧ (∃ out, t.arc.inFlight = some { q with stage := .writing, written := 0, out := out }
          ∧ (composeNow = false → out = none) ∧ (composeNow = true → out = some (headerWords t)))
      ∧ (halfSum q.got = 0 → t.plan.table.length = 64 ∧ t.plan.edition = some q.planEdition
          ∧ (∀ i : Nat, i < count →
              t.plan.table[i]? = some (classify (q.got.getD (2 * i + 1) 0) (q.got.getD (2 * i + 2) 0)))
          ∧ (∀ i : Nat, count ≤ i → i < 64 → t.plan.table[i]? = some .vacant)
          ∧ t.plan.ignored = t.plan.table.countP (· == .ignored)
          ∧ t.arc.loadOutcome = .adopted ∧ t.arc.loadIgnored = t.plan.ignored
          ∧ t.jnl = s.jnl.stage ⟨none, s.now, .plan q.planEdition .adopted t.plan.ignored⟩)
      ∧ (halfSum q.got ≠ 0 → t.plan = s.plan ∧ t.arc.loadOutcome = .rejectedCheck ∧ t.arc.loadIgnored = 0
          ∧ t.jnl = s.jnl.stage ⟨none, s.now, .plan q.planEdition .rejectedCheck 0⟩))
  ∧ ∀ w0 w1 : Word,
    let code (j : Nat) : Nat := w0.toNat / 16 ^ j % 16
    let length := w1.toNat % 16
    let value := w1.toNat / 256 % 32
    let bad := length = 0 ∨ 8 < length ∨ (1 ≤ value ∧ value ≤ 24 ∧ value < length) ∨ 24 < value
      ∨ ∃ j, j < length ∧ 10 ≤ code j ∧ code j ≤ 14
    (w1.getLsbD 16 = false → classify w0 w1 = .vacant)
      ∧ (w1.getLsbD 16 = true → bad → classify w0 w1 = .ignored)
      ∧ (w1.getLsbD 16 = true → ¬ bad → ∃ e, classify w0 w1 = .valid e ∧ e.prefixKeys.length = length
          ∧ (∀ j, j < length → (code j = 15 → e.prefixKeys[j]? = some none)
              ∧ (code j ≤ 9 → ∃ key : Key, key.val = code j ∧ e.prefixKeys[j]? = some (some key)))
          ∧ e.length = (if value = 0 then none else some value)
          ∧ e.endKey = w1.getLsbD 17 ∧ e.cls = (if w1.getLsbD 18 = true then .urgent else .normal))

/-- The header check of STARTING: after a HALT nothing is taken up; a good header takes up the area base, the journal's
base, size and wake count, and the journal starts empty at the release index with the publish mark set and a journal
sequence asked for; a bad one faults the port (R180, R189, R194, R200, R215, R218). That a HALT taken
after the last read still leads to IDLE here is the model's reading (assumption log 17). -/
def Obligations.HeaderChecks : Prop :=
  ∀ (q : Sequence) (s : State), s.part.phase = .working → s.arc.inFlight = some q → q.kind = .starting →
    q.stage = .readDone → s.arc.port = .starting →
    let format := (q.got.getD 0 0).toNat % 256
    let lines := (q.got.getD 0 0).toNat / 256 % 256
    let code := (q.got.getD 0 0).toNat / 65536 % 256
    let release := (q.got.getD 3 0).toNat % 65536
    let good := format = 1 ∧ lines = 96 ∧ code ≤ 6 ∧ release < 64 * 2 ^ code
    ∃ t, exec .headerCheck s = .next t ∧ t.arc.inFlight = none
      ∧ t = { s with arc := t.arc, jnl := t.jnl, regs := t.regs }
      ∧ (s.arc.haltTaken = true → t.arc.port = .idle ∧ t.jnl = s.jnl ∧ t.regs = s.regs ∧ t.arc.base = s.arc.base)
      ∧ (s.arc.haltTaken = false → good → t.arc.port = .running ∧ t.arc.base = q.base ∧ t.arc.sweep = 0
          ∧ PortRequest.journal ∈ t.arc.queue ∧ t.regs = s.regs
          ∧ t.jnl = { s.jnl with
              base := q.got.getD 1 0 &&& 0xFFFFFFFC, slots := 64 * 2 ^ code
              wakeCount := (q.got.getD 2 0).toNat % 65536
              head := release, heldRelease := release, publish := true, holdOff := false, holdOffDue := false })
      ∧ (s.arc.haltTaken = false → ¬ good → t.arc.port = .faulted ∧ t.arc.queue = [] ∧ t.arc.base = s.arc.base
          ∧ t.regs = { s.regs with faultCode := .badHeader, attention := s.regs.attention ||| 4 }
          ∧ t.jnl = { s.jnl with holdOff := false, holdOffDue := false })

/-! ## Requests -/

/-- A request row under the edition already acknowledged does nothing (R174). NONE, CLEAR_FLAGS, RESET_SPEED and an
unknown code under a new edition: no record, no sender, no other line; the edition and outcome acknowledged (R70,
R93, R174, R175). For the codes 0 to 8, which are other requests', that UNKNOWN_REQUEST is answered as for 9 to 255 is the
model's choice (assumption log 18). A line without a profile is OUT_OF_SERVICE (ProfileLaws), so RESET_SPEED has no third
case. -/
def Obligations.QuietRequestRows : Prop :=
  (∀ (n : LineNo) (e : Byte) (s : State), (s.line n).requestEdition = some e →
    (∀ c ∈ [Instr.requestNone n e, .flush n e, .endNumber n e, .resume n e, .clearFlags n e, .block n e, .unblock n e,
        .resetSpeed n e], exec c s = .next s)
      ∧ (∀ count keys, exec (.inject n e count keys) s = .next s)
      ∧ (∀ code, exec (.unknownRequest n e code) s = .next s))
    ∧ (∀ (n : LineNo) (e : Byte) (s : State), s.part.phase = .working → (s.line n).requestEdition ≠ some e →
    let answered (o : RequestOutcome) (l : Line) : State :=
      s.setLine n { l with requestEdition := some e, requestOutcome := o }
    let l := s.line n
    exec (.requestNone n e) s = .next (answered .done l)
      ∧ (∀ code, exec (.unknownRequest n e code) s = .next (answered .unknownRequest l))
      ∧ exec (.clearFlags n e) s = .next (answered .done { l with sticky := 0 })
      ∧ (l.main = .outOfService → exec (.resetSpeed n e) s = .next (answered .wrongState l))
      ∧ (∀ p, l.main ≠ .outOfService → l.adopted = some p →
          exec (.resetSpeed n e) s = .next (answered .done { l with estimate := 16 * p.pNom })))

/-- INJECT under a new edition: the first case of R122's table that applies; its keys whole, in operand order, or none
(R122, R174, R186). A line so given keys joins the wait list, unless it waits or holds a sender (R127, R130). -/
def Obligations.InjectRequest : Prop :=
  ∀ (n : LineNo) (e count : Byte) (keys : Word) (s : State), s.part.phase = .working →
    (s.line n).requestEdition ≠ some e →
    let l := s.line n
    let o : RequestOutcome :=
      if l.main ≠ .collecting ∧ l.main ≠ .through then .wrongState
      else if count.toNat = 0 ∨ 8 < count.toNat then .badOperand
      else if 32 < l.store.length + count.toNat then .noRoom
      else .done
    let injected : List StoredKey := (List.range count.toNat).map fun i =>
      ⟨Fin.ofNat 16 (keys.toNat / 2 ^ (4 * i) % 16), .injected⟩
    ∃ t, exec (.inject n e count keys) s = .next t
      ∧ SameButSender { l with
          store := if o = .done then l.store ++ injected else l.store
          requestEdition := some e, requestOutcome := o } (t.line n)
      ∧ Recorded [] s t
      ∧ (o = .done → PoolFollows n s t)
      ∧ (o ≠ .done → t.pool = s.pool ∧ OtherLinesSame n s t)

/-- FLUSH under a new edition: in a call every key goes, but for a key in flight, whose sender's flush mark is set; a
waiting line leaves the list; an empty store is left (R124, R128, R138). -/
def Obligations.FlushRequest : Prop :=
  ∀ (n : LineNo) (e : Byte) (s : State), s.part.phase = .working → (s.line n).requestEdition ≠ some e →
    let l := s.line n
    let inCall := l.main = .collecting ∨ l.main = .through ∨ l.main = .suspended
    let answered (o : RequestOutcome) (store : List StoredKey) : Line :=
      { l with store := store, requestEdition := some e, requestOutcome := o }
    ∃ t, exec (.flush n e) s = .next t ∧ OtherLinesSame n s t ∧ OtherBlocksSame s t ∧ Recorded [] s t
      ∧ (¬ inCall → t.line n = answered .wrongState l.store ∧ t.pool = s.pool)
      ∧ (inCall → l.store = [] → t.line n = answered .done [] ∧ t.pool = s.pool)
      ∧ (inCall → l.store ≠ [] → l.attached = none → t.line n = answered .done []
          ∧ t.pool = { s.pool with waitList := s.pool.waitList.filter fun x => x.line != n })
      ∧ (∀ k, inCall → l.store ≠ [] → l.attached = some k → t.line n = answered .done (l.store.take 1)
          ∧ t.sender k = { s.sender k with flushMark := true } ∧ (∀ j, j ≠ k → t.sender j = s.sender j)
          ∧ t.pool.waitList = s.pool.waitList)

/-- END_NUMBER under a new edition: in COLLECTING with call digits the number completes FORCED; elsewhere WRONG_STATE
(R110 to R114, R174). RESUME under a new edition: a SUSPENDED line returns to its resume target, call digits kept,
the completion timer from zero when it holds any; elsewhere WRONG_STATE; no record (R29, R98, R174). A trapped set takes a
waiting line out of the wait list (R128); otherwise it goes on waiting, its joining time kept and its entry moved among the
URGENT entries at a class raise (R105, R129). A line that does not wait joins when it has keys and no sender, after a RESUME
too (R29, R127, R130). -/
def Obligations.EndNumberAndResumeRequests : Prop :=
  (∀ (n : LineNo) (e : Byte) (s : State), s.part.phase = .working → (s.line n).requestEdition ≠ some e →
    let l := s.line n
    let answered (o : RequestOutcome) (m : Line) : Line := { m with requestEdition := some e, requestOutcome := o }
    ∃ t, exec (.endNumber n e) s = .next t
      ∧ (¬ (l.main = .collecting ∧ l.digits ≠ []) → t.line n = answered .wrongState l ∧ OtherLinesSame n s t
          ∧ t.pool = s.pool ∧ Recorded [] s t)
      ∧ (∀ p, l.main = .collecting → l.digits ≠ [] → l.adopted = some p →
          SameButSender (answered .done (numberLine p .forced (evaluate s.plan.table l.digits) l)) (t.line n)
            ∧ (if numberSet p .forced (evaluate s.plan.table l.digits) l &&& p.trapMask = 0 then PoolFollows n s t
              else LeavesTheList n s t)
            ∧ Recorded (numberRecords n p .forced (evaluate s.plan.table l.digits) s.now l) s t))
    ∧ (∀ (n : LineNo) (e : Byte) (s : State), s.part.phase = .working → (s.line n).requestEdition ≠ some e →
    let l := s.line n
    let answered (o : RequestOutcome) (m : Line) : Line := { m with requestEdition := some e, requestOutcome := o }
    ∃ t, exec (.resume n e) s = .next t ∧ Recorded [] s t
      ∧ (l.main ≠ .suspended → t.line n = answered .wrongState l ∧ OtherLinesSame n s t ∧ t.pool = s.pool)
      ∧ (l.main = .suspended → l.resumeTarget = some .through →
          SameButSender (answered .done { l with main := .through, resumeTarget := none }) (t.line n)
            ∧ PoolFollows n s t)
      ∧ (∀ p, l.main = .suspended → l.resumeTarget = some .collecting → l.adopted = some p →
          SameButSender (answered .done { l with
            main := .collecting, resumeTarget := none
            completionTimer := if l.digits = [] then l.completionTimer
              else if p.tComplete = 0 then none else some 0 }) (t.line n)
            ∧ PoolFollows n s t))

/-- BLOCK and UNBLOCK under a new edition, by main state: the BLOCK record with reason ADMIN, the release effects in a
call, the conditioning at rest, a pending profile adopted; the way back from BLOCKED(ADMIN) alone, integration starting with
the next tick's sample: the samples still due up to the present tick are not taken (R13, R30, R31, R35; assumption log
19). A sender freed by the block goes to the head of the wait list, and with no line waiting it stays FREE (R130, R131,
R139). -/
def Obligations.BlockAndUnblockRequests : Prop :=
  ∀ (n : LineNo) (e : Byte) (s : State), s.part.phase = .working → (s.line n).requestEdition ≠ some e →
    let l := s.line n
    let answered (o : RequestOutcome) (m : Line) : Line := { m with requestEdition := some e, requestOutcome := o }
    let inCall := l.main = .collecting ∨ l.main = .through ∨ l.main = .suspended
    (∃ t, exec (.block n e) s = .next t
      ∧ (l.main = .outOfService → t = s.setLine n (answered .wrongState l))
      ∧ (l.main = .blocked .admin → t = s.setLine n (answered .done l))
      ∧ (inCall → t.line n = answered .done (pendingAdopted (releasedLine (.blocked .admin) (restartedLine l)))
          ∧ (∀ x ∈ t.pool.waitList, x.line ≠ n) ∧ (∀ k, FreedGoesOn false k n s t)
          ∧ (l.attached = none → LeavesTheList n s t ∧ OtherLinesSame n s t)
          ∧ Recorded (⟨some n, s.now, .block .admin⟩ :: (cutRecord n s.now s ++ pendingRecords n s.now l)) s t)
      ∧ (l.main = .onHook ∨ l.main = .seizing ∨ l.main = .blocked .fault →
          t.line n = answered .done (pendingAdopted { restartedLine l with main := .blocked .admin, sub := .idle })
          ∧ t.pool = s.pool ∧ OtherLinesSame n s t
          ∧ Recorded (⟨some n, s.now, .block .admin⟩ :: pendingRecords n s.now l) s t))
    ∧ (∃ t, exec (.unblock n e) s = .next t
      ∧ (l.main ≠ .blocked .admin → t = s.setLine n (answered .wrongState l))
      ∧ (l.main = .blocked .admin → t.line n = answered .done { restartedLine l with
            main := .onHook, skipSamples := if s.scan.shifting = true then s.scan.owed + 1 else 0 }
          ∧ t.pool = s.pool ∧ Recorded [⟨some n, s.now, .unblock .admin⟩] s t))

/-! ## The Journal Unit -/

/-- The release index read of a journal sequence: taken up when in span; no room sets the hold-off; the sequence writes
the least of the room, the staged records and 8, numbered from the sequence counter, then the new head, or ends at
once with nothing to write and no publish mark (R194 to R198). The hold-off clears at a tick boundary, and a journal
sequence is asked for when one is wanted (R194), behind a visit already queued at that boundary (the model's choice,
assumption log 24). A record's words are laid out as R188 gives. A word with no field of
the record's kind is 0 (R184, R188). That a sequence with no room sets the hold-off in HALTING too is the model's (17). -/
def Obligations.ReleaseReadAndHoldOff : Prop :=
  (∀ (q : Sequence) (s : State), s.part.phase = .working → s.arc.inFlight = some q → q.kind = .journal →
    q.stage = .readDone →
    let j := s.jnl
    let release := (q.got.getD 0 0).toNat % 65536
    let held := if release < j.slots
        ∧ (release + j.slots - j.heldRelease) % j.slots ≤ (j.head + j.slots - j.heldRelease) % j.slots
      then release else j.heldRelease
    let room := (held + j.slots - j.head - 1) % j.slots
    let count := min (min room j.staging.length) 8
    ∃ t, exec .releaseRead s = .next t ∧ t = { s with arc := t.arc, jnl := t.jnl }
      ∧ t.jnl = { j with
          heldRelease := held, holdOff := if room = 0 then true else j.holdOff
          holdOffDue := if room = 0 then false else j.holdOffDue }
      ∧ (count = 0 → j.publish = false → t.arc.inFlight = none ∧ t.arc.busWait = 0 ∧ t.arc.queue = s.arc.queue
          ∧ t.arc.port = if s.arc.port = .halting then .idle else s.arc.port)
      ∧ (0 < count ∨ j.publish = true → ∃ words, t.arc.inFlight = some { q with
            stage := .writing, count := count, out := some words, written := 0 }
          ∧ words.length = 4 * count + 1
          ∧ words[4 * count]? = some (BitVec.ofNat 32 ((j.head + count) % j.slots % 65536))
          ∧ (∀ i r, i < count → j.staging[i]? = some r →
              (words.drop (4 * i)).take 4 = recordWords ((j.sequence + i) % 65536) r)
          ∧ t.arc = { s.arc with inFlight := t.arc.inFlight }))
    ∧ (∀ s : State, s.part.phase = .working → s.jnl.holdOffDue = true →
    ∃ t, exec .holdOffClear s = .next t ∧ t = { s with arc := t.arc, jnl := t.jnl }
      ∧ t.jnl = { s.jnl with holdOff := false, holdOffDue := false }
      ∧ (s.arc.port = .running → s.jnl.staging ≠ [] ∨ s.jnl.publish = true → PortRequest.journal ∉ s.arc.queue →
          s.arc.journalling = false → t.arc = { s.arc with queue := s.arc.queue ++ [.journal] })
      ∧ (s.arc.port ≠ .running ∨ s.jnl.staging = [] ∧ s.jnl.publish = false ∨ PortRequest.journal ∈ s.arc.queue
          ∨ s.arc.journalling = true → t.arc = s.arc))
    ∧ (∀ (sequence : Nat) (r : Record), sequence < 65536 → r.time.tick < 2048 →
      ∃ w0 w1, recordWords sequence r = [w0, w1, r.body.word8, r.body.word12]
        ∧ Holds w0 [(sequence, 0, 16), (r.body.kind, 16, 8), (match r.line with
            | some n => n.val
            | none => 255, 24, 8)]
        ∧ Holds w1 [(r.time.seconds.toNat % 65536, 0, 16), (r.time.tick, 16, 11)])
    ∧ (∀ key pulses x causes estimate, pulses < 16 → estimate < 2 ^ 19 →
      let body := RecordBody.digit key pulses x causes estimate
      body.kind = 2 ∧ Holds body.word12 [(estimate, 0, 19)]
        ∧ Holds body.word8 [(match key with
            | some k => k.val
            | none => 15, 0, 4), (pulses, 4, 4), (x.code, 8, 3), (causes.toNat, 16, 9)])
    ∧ (∀ outcome length entry cls causes, length < 32 → (∀ i, entry = some i → i < 64) →
      let body := RecordBody.number outcome length entry cls causes
      body.kind = 4 ∧ Holds body.word12 [(causes.toNat, 0, 9)]
        ∧ Holds body.word8 [(outcome.code, 0, 3), (length, 8, 5), (match entry with
            | some i => i
            | none => 127, 16, 7), (if cls = .urgent then 1 else 0, 24, 1)])
    ∧ (∀ sender sent reason, sent < 65536 →
      let body := RecordBody.sendDone sender sent reason
      body.kind = 5 ∧ Holds body.word8 [(sender.val, 0, 4), (reason.code, 8, 2)] ∧ Holds body.word12 [(sent, 0, 16)])
    ∧ (∀ discarded, discarded < 64 → (RecordBody.release discarded).kind = 6
      ∧ Holds (RecordBody.release discarded).word8 [(discarded, 0, 6)])
    ∧ (∀ trapped prior, (RecordBody.exception trapped prior).kind = 7
      ∧ Holds (RecordBody.exception trapped prior).word8 [(trapped.toNat, 0, 9), (prior.code, 16, 3)])
    ∧ (∀ edition outcome, outcome.field < 32 → (RecordBody.profile edition outcome).kind = 10
      ∧ Holds (RecordBody.profile edition outcome).word8
        [(edition.toNat, 0, 8), (outcome.code, 8, 2), (outcome.field, 16, 5)])
    ∧ (∀ edition outcome ignored, ignored < 128 → (RecordBody.plan edition outcome ignored).kind = 11
      ∧ Holds (RecordBody.plan edition outcome ignored).word8
        [(edition.toNat, 0, 8), (if outcome = .rejectedCheck then 1 else 0, 8, 1), (ignored, 16, 7)])
    ∧ (∀ lost, lost < 65536 → (RecordBody.gap lost).kind = 13 ∧ Holds (RecordBody.gap lost).word8 [(lost, 0, 16)])
    ∧ (∀ x, (RecordBody.flash x).kind = 3 ∧ Holds (RecordBody.flash x).word8 [(x.code, 8, 3)])
    ∧ (∀ reason, (RecordBody.block reason).kind = 8 ∧ (RecordBody.unblock reason).kind = 9
      ∧ Holds (RecordBody.block reason).word8 [(if reason = .fault then 1 else 0, 0, 1)]
      ∧ Holds (RecordBody.unblock reason).word8 [(if reason = .fault then 1 else 0, 0, 1)])
    ∧ (∀ state, (RecordBody.clock state).kind = 12 ∧ Holds (RecordBody.clock state).word8 [(state.code, 0, 2)])
    ∧ RecordBody.seize.kind = 1 ∧ RecordBody.seize.word8 = 0
    ∧ (∀ body : RecordBody, body.kind ≠ 2 → body.kind ≠ 4 → body.kind ≠ 5 → body.word12 = 0)
    ∧ [NumberOutcome.exact, .timeout, .unmatched, .full, .forced].map NumberOutcome.code = [0, 1, 2, 3, 4]
    ∧ [SendReason.empty, .flushed, .cut].map SendReason.code = [0, 1, 2]
    ∧ [Disposition.none, .collected, .collectedStored, .collectedDropped, .stored, .dropped, .ignored, .discarded].map
        Disposition.code = [0, 1, 2, 3, 4, 5, 6, 7]

/-- A commit: the written records leave staging, a GAP record joins its tail when a full FIFO had losses, the head and
the sequence counter advance, the publish mark clears, JOURNAL and URGENT are set by their causes (R192, R193, R195,
R198, R201, R202). The sequence ends: a HALTING port is then IDLE, and otherwise the waiting requests stay and a further
journal sequence is asked for when records are left and no hold-off stands (R194, R215). -/
def Obligations.JournalCommits : Prop :=
  ∀ (q : Sequence) (s : State), s.part.phase = .working → s.arc.inFlight = some q → q.kind = .journal →
    q.stage = .writeDone →
    let j := s.jnl
    let gapDue := 0 < q.count ∧ 32 ≤ j.staging.length ∧ 0 < j.gap
    ∃ t, exec .journalCommit s = .next t ∧ t = { s with arc := t.arc, jnl := t.jnl, regs := t.regs }
      ∧ t.arc = { s.arc with
          port := t.arc.port, haltTaken := t.arc.haltTaken, queue := t.arc.queue, inFlight := none, busWait := 0 }
      ∧ (s.arc.port = .halting → t.arc.port = .idle ∧ t.arc.queue = s.arc.queue)
      ∧ (s.arc.port ≠ .halting → t.arc.port = s.arc.port ∧ t.arc.haltTaken = s.arc.haltTaken
          ∧ t.arc.queue = s.arc.queue ++ (if s.arc.port = .running ∧ t.jnl.staging ≠ []
              ∧ PortRequest.journal ∉ s.arc.queue ∧ j.holdOff = false then [.journal] else []))
      ∧ t.jnl = { j with
          staging := j.staging.drop q.count ++ (if gapDue then [⟨none, s.now, .gap j.gap⟩] else [])
          gap := if gapDue then 0 else j.gap
          head := (j.head + q.count) % j.slots
          sequence := (j.sequence + q.count) % 65536
          publish := false }
      ∧ (let unreleased := (t.jnl.head + j.slots - j.heldRelease) % j.slots
         let wake := min j.wakeCount (j.slots - 1)
         let urgent := ∃ r ∈ j.staging.take q.count, r.body = .block .fault ∨ ∃ x m, r.body = .exception x m
         t.regs = { s.regs with attention := t.regs.attention }
          ∧ (t.regs.attention.getLsbD 0 = true ↔ s.regs.attention.getLsbD 0 = true ∨ 0 < wake ∧ wake ≤ unreleased)
          ∧ (t.regs.attention.getLsbD 1 = true ↔ s.regs.attention.getLsbD 1 = true ∨ urgent)
          ∧ t.regs.attention.getLsbD 2 = s.regs.attention.getLsbD 2
          ∧ t.regs.attention.getLsbD 3 = s.regs.attention.getLsbD 3)

/-! ## The register window -/

/-- RUN, HALT, CLEAR_FAULT and a field with no command, by port state (R161, R194, R214, R215, R218). Register writes:
AREA BASE taken in IDLE alone, its two low bits 0; a 1 in bit 7 of STATUS clears the power-on flag and nothing else;
each 1 clears its ATTENTION bit; outside the working phase no write is taken (R214, R216, R217, R219). The command of a
write by address bits 2 and 3 and, for CONTROL, by bits 0 to 2 of its word; what a read of each register answers (R213,
R216, R217). The model's own: writes are ignored while a reset lasts as in the hold (assumption log 15), and an
IGNORED_COMMAND with a field that has a command does nothing (18). -/
def Obligations.RegisterWindowWrites : Prop :=
  (∀ s : State, s.part.phase = .working →
    (s.arc.port = .idle → ∃ q, exec .run s = .next { s with arc := { s.arc with
          port := .starting, haltTaken := false, inFlight := some q, busWait := 0 } }
        ∧ q.kind = .starting ∧ q.stage = .reading ∧ q.granted = false ∧ q.base = s.regs.areaBase ∧ q.got = [])
      ∧ (s.arc.port ≠ .idle → exec .run s = .next s)
      ∧ (s.arc.port = .starting → exec .halt s = .next { s with arc := { s.arc with haltTaken := true } })
      ∧ (s.arc.port = .running → s.arc.inFlight ≠ none → exec .halt s = .next { s with
          arc := { s.arc with port := .halting, queue := [] }
          jnl := { s.jnl with holdOff := false, holdOffDue := false } })
      ∧ (s.arc.port = .running → s.arc.inFlight = none → exec .halt s = .next { s with
          arc := { s.arc with port := .idle, haltTaken := false, queue := [], busWait := 0, inFlight := none }
          jnl := { s.jnl with holdOff := false, holdOffDue := false } })
      ∧ (s.arc.port = .idle ∨ s.arc.port = .halting ∨ s.arc.port = .faulted → exec .halt s = .next s)
      ∧ (s.arc.port = .faulted → exec .clearFault s = .next { s with arc := { s.arc with port := .idle } })
      ∧ (s.arc.port ≠ .faulted → exec .clearFault s = .next s)
      ∧ ∀ f, exec (.ignoredCommand f) s = .next s)
    ∧ (∀ (data : Word) (s : State),
    (s.part.phase = .working → s.arc.port = .idle → ∃ base, exec (.areaBaseWrite data) s
        = .next { s with regs := { s.regs with areaBase := base } }
        ∧ ∀ i : Nat, i < 32 → base.getLsbD i = (data.getLsbD i && decide (2 ≤ i)))
      ∧ (s.part.phase = .working → s.arc.port ≠ .idle → exec (.areaBaseWrite data) s = .next s)
      ∧ (s.part.phase = .working → exec (.statusWrite data) s = .next { s with regs := { s.regs with
          powerOnFlag := if data.getLsbD 7 then false else s.regs.powerOnFlag } })
      ∧ (s.part.phase = .working → ∃ bits, exec (.attentionWrite data) s
          = .next { s with regs := { s.regs with attention := bits } }
          ∧ ∀ i : Nat, i < 4 → bits.getLsbD i = (s.regs.attention.getLsbD i && !data.getLsbD i))
      ∧ (s.part.phase ≠ .working → exec (.areaBaseWrite data) s = .next s ∧ exec (.statusWrite data) s = .next s
          ∧ exec (.attentionWrite data) s = .next s ∧ exec .run s = .next s ∧ exec .halt s = .next s
          ∧ exec .clearFault s = .next s))
    ∧ (∀ address data : Word,
      (address.toNat / 4 % 4 = 0 → registerWrite address data = .areaBaseWrite data)
      ∧ (address.toNat / 4 % 4 = 1 → registerWrite address data =
          if data.toNat % 8 = 1 then .run else if data.toNat % 8 = 2 then .halt
          else if data.toNat % 8 = 3 then .clearFault else if data.toNat % 8 = 4 then .softReset
          else .ignoredCommand (data.setWidth 3))
      ∧ (address.toNat / 4 % 4 = 2 → registerWrite address data = .statusWrite data)
      ∧ (address.toNat / 4 % 4 = 3 → registerWrite address data = .attentionWrite data))
    ∧ (∀ (address : Word) (s : State),
      (address.toNat / 4 % 4 = 0 → readRegister address s = s.regs.areaBase)
      ∧ (address.toNat / 4 % 4 = 1 → readRegister address s = 0)
      ∧ (address.toNat / 4 % 4 = 2 → Holds (readRegister address s) [
          (match s.arc.port with
            | .idle => 0
            | .starting => 1
            | .running => 2
            | .halting => 3
            | .faulted => 4, 0, 3),
          (match s.clk.state with
            | .free => 0
            | .qualifying => 1
            | .locked => 2
            | .holdover => 3, 3, 2),
          (match s.regs.resetCause with
            | .powerOn => 0
            | .pin => 1
            | .soft => 2, 5, 2),
          (if s.regs.powerOnFlag = true then 1 else 0, 7, 1),
          (match s.regs.faultCode with
            | .none => 0
            | .busError => 1
            | .busTimeout => 2
            | .badHeader => 3, 8, 2)])
      ∧ (address.toNat / 4 % 4 = 3 → Holds (readRegister address s) [(s.regs.attention.toNat, 0, 4)]))

/-! ## Invariants that every step keeps -/

/-- Staging, gap count, key stores and call digits keep their bounds (R97, R120, R192). -/
def Obligations.BufferLawsKept : Prop := ∀ s t : State, BufferLaws s → step s = .next t → BufferLaws t

/-- The port queue, the port state and the sequence in flight keep agreeing (R161, R213, R218). -/
def Obligations.PortLawsKept : Prop := ∀ s t : State, PortLaws s → step s = .next t → PortLaws t

/-- Base addresses stay on four-byte boundaries, and memory in its canonical form (R159, R189, R214). -/
def Obligations.AlignmentAndMemoryKept : Prop :=
  ∀ s t : State, step s = .next t →
    (AlignmentLaws s → AlignmentLaws t ∧ ∀ a, busAddress t = some a → a.toNat % 4 = 0)
      ∧ (Memory.wf s.mem → Memory.wf t.mem)

/-- The train fields keep their shape (R18, R40, R44, R54, R55). -/
def Obligations.TrainLawsKept : Prop := ∀ s t : State, TrainLaws s → step s = .next t → TrainLaws t

/-- Profiles stay sound, and integrator and estimate within them (R4, R17, R66, R74, R165, R169, R170). -/
def Obligations.ProfileLawsKept : Prop := ∀ s t : State, ProfileLaws s → step s = .next t → ProfileLaws t

/-- Calls, senders and the wait list keep agreeing (R17, R19, R98, R126, R130): the list names only lines that should wait,
and every line in COLLECTING or THROUGH with keys and no sender is in it (R29, R121, R127). -/
def Obligations.CallAndPoolLawsKept : Prop :=
  ∀ s t : State, CallLaws s → PoolLaws s → step s = .next t →
    CallLaws t ∧ PoolLaws t ∧ (WaitLaw s → WaitLaw t)

/-- No sender stays FREE while a line waits (R130). -/
def Obligations.ArbiterLawKept : Prop := ∀ s t : State, ArbiterLaw s → step s = .next t → ArbiterLaw t

/-- The clock's counts keep their ranges; senders sound only in LOCKED; XTXD is driven exactly there (R140, R141, R145,
R146, R156, R204 to R211). Clauses of ClockLaws that rest on the model's reading: the lock-due mark stands only in
QUALIFYING, being cleared on entry to LOCKED, and the missing count may stand at 4 after a loss (assumption log 14); the
rollover mark stands only at tick 1999 (log 7); the count of a closed divider window is kept for DIVIDER_WINDOW_CLOSE (log
13). -/
def Obligations.ClockAndHighwayLawsKept : Prop :=
  ∀ s t : State, ClockLaws s → HighwayLaws s → step s = .next t → ClockLaws t ∧ HighwayLaws t
end

