-- ==== Sys2Proof/Laws/State.lean ====
section
/-! SUPPORT. One lemma per field per update of State, and what reading a line or a sender after an update answers. -/

namespace Sys2Proof.Machine

/-! ### Line records -/

@[simp] theorem line_setLine (s : State) (n m : LineNo) (l : Line) :
    (s.setLine n l).line m = if m = n then l else s.line m := by
  by_cases h : m = n
  · subst h; simp [State.setLine, State.line]
  · have : ¬ n.val = m.val := fun e => h (Fin.ext e.symm)
    simp [State.setLine, State.line, h, this]

theorem line_setLine_self (s : State) (n : LineNo) (l : Line) : (s.setLine n l).line n = l := by simp

theorem line_setLine_of_ne (s : State) {n m : LineNo} (l : Line) (h : m ≠ n) : (s.setLine n l).line m = s.line m := by
  simp [h]

@[simp] theorem setLine_setLine (s : State) (n : LineNo) (l l' : Line) :
    (s.setLine n l).setLine n l' = s.setLine n l' := by
  simp [State.setLine]

@[simp] theorem setLine_line (s : State) (n : LineNo) : s.setLine n (s.line n) = s := by
  simp [State.setLine, State.line]

@[simp] theorem line_mapLines (s : State) (f : Line → Line) (n : LineNo) : (s.mapLines f).line n = f (s.line n) := by
  simp [State.mapLines, State.line]

/-! ### Senders -/

@[simp] theorem sender_setSender (s : State) (k j : SenderNo) (x : Sender) :
    (s.setSender k x).sender j = if j = k then x else s.sender j := by
  by_cases h : j = k
  · subst h; simp [State.setSender, State.sender]
  · have : ¬ k.val = j.val := fun e => h (Fin.ext e.symm)
    simp [State.setSender, State.sender, h, this]

theorem sender_setSender_self (s : State) (k : SenderNo) (x : Sender) : (s.setSender k x).sender k = x := by simp

@[simp] theorem setSender_setSender (s : State) (k : SenderNo) (x x' : Sender) :
    (s.setSender k x).setSender k x' = s.setSender k x' := by
  simp [State.setSender]

@[simp] theorem sender_mapSenders (s : State) (f : Sender → Sender) (k : SenderNo) :
    (s.mapSenders f).sender k = f (s.sender k) := by
  simp [State.mapSenders, State.sender]

@[simp] theorem sender_setLine (s : State) (n : LineNo) (l : Line) (k : SenderNo) :
    (s.setLine n l).sender k = s.sender k := rfl

@[simp] theorem line_setSender (s : State) (k : SenderNo) (x : Sender) (n : LineNo) :
    (s.setSender k x).line n = s.line n := rfl

@[simp] theorem line_mapSenders (s : State) (f : Sender → Sender) (n : LineNo) :
    (s.mapSenders f).line n = s.line n := rfl

@[simp] theorem sender_mapLines (s : State) (f : Line → Line) (k : SenderNo) :
    (s.mapLines f).sender k = s.sender k := rfl

@[simp] theorem setSender_waitList (s : State) (k : SenderNo) (x : Sender) :
    (s.setSender k x).pool.waitList = s.pool.waitList := rfl

@[simp] theorem setSender_joins (s : State) (k : SenderNo) (x : Sender) :
    (s.setSender k x).pool.joins = s.pool.joins := rfl

@[simp] theorem mapSenders_waitList (s : State) (f : Sender → Sender) :
    (s.mapSenders f).pool.waitList = s.pool.waitList := rfl

@[simp] theorem mapSenders_joins (s : State) (f : Sender → Sender) :
    (s.mapSenders f).pool.joins = s.pool.joins := rfl

/-! ### setLine -/

@[simp] theorem setLine_pending (s : State) (n : LineNo) (l : Line) : (s.setLine n l).pending = s.pending := rfl
@[simp] theorem setLine_part (s : State) (n : LineNo) (l : Line) : (s.setLine n l).part = s.part := rfl
@[simp] theorem setLine_regs (s : State) (n : LineNo) (l : Line) : (s.setLine n l).regs = s.regs := rfl
@[simp] theorem setLine_scan (s : State) (n : LineNo) (l : Line) : (s.setLine n l).scan = s.scan := rfl
@[simp] theorem setLine_plan (s : State) (n : LineNo) (l : Line) : (s.setLine n l).plan = s.plan := rfl
@[simp] theorem setLine_pool (s : State) (n : LineNo) (l : Line) : (s.setLine n l).pool = s.pool := rfl
@[simp] theorem setLine_hwy (s : State) (n : LineNo) (l : Line) : (s.setLine n l).hwy = s.hwy := rfl
@[simp] theorem setLine_arc (s : State) (n : LineNo) (l : Line) : (s.setLine n l).arc = s.arc := rfl
@[simp] theorem setLine_jnl (s : State) (n : LineNo) (l : Line) : (s.setLine n l).jnl = s.jnl := rfl
@[simp] theorem setLine_clk (s : State) (n : LineNo) (l : Line) : (s.setLine n l).clk = s.clk := rfl
@[simp] theorem setLine_mem (s : State) (n : LineNo) (l : Line) : (s.setLine n l).mem = s.mem := rfl

/-! ### mapLines -/

@[simp] theorem mapLines_pending (s : State) (f : Line → Line) : (s.mapLines f).pending = s.pending := rfl
@[simp] theorem mapLines_part (s : State) (f : Line → Line) : (s.mapLines f).part = s.part := rfl
@[simp] theorem mapLines_regs (s : State) (f : Line → Line) : (s.mapLines f).regs = s.regs := rfl
@[simp] theorem mapLines_scan (s : State) (f : Line → Line) : (s.mapLines f).scan = s.scan := rfl
@[simp] theorem mapLines_plan (s : State) (f : Line → Line) : (s.mapLines f).plan = s.plan := rfl
@[simp] theorem mapLines_pool (s : State) (f : Line → Line) : (s.mapLines f).pool = s.pool := rfl
@[simp] theorem mapLines_hwy (s : State) (f : Line → Line) : (s.mapLines f).hwy = s.hwy := rfl
@[simp] theorem mapLines_arc (s : State) (f : Line → Line) : (s.mapLines f).arc = s.arc := rfl
@[simp] theorem mapLines_jnl (s : State) (f : Line → Line) : (s.mapLines f).jnl = s.jnl := rfl
@[simp] theorem mapLines_clk (s : State) (f : Line → Line) : (s.mapLines f).clk = s.clk := rfl
@[simp] theorem mapLines_mem (s : State) (f : Line → Line) : (s.mapLines f).mem = s.mem := rfl

/-! ### setSender -/

@[simp] theorem setSender_pending (s : State) (k : SenderNo) (x : Sender) : (s.setSender k x).pending = s.pending := rfl
@[simp] theorem setSender_part (s : State) (k : SenderNo) (x : Sender) : (s.setSender k x).part = s.part := rfl
@[simp] theorem setSender_regs (s : State) (k : SenderNo) (x : Sender) : (s.setSender k x).regs = s.regs := rfl
@[simp] theorem setSender_scan (s : State) (k : SenderNo) (x : Sender) : (s.setSender k x).scan = s.scan := rfl
@[simp] theorem setSender_lines (s : State) (k : SenderNo) (x : Sender) : (s.setSender k x).lines = s.lines := rfl
@[simp] theorem setSender_plan (s : State) (k : SenderNo) (x : Sender) : (s.setSender k x).plan = s.plan := rfl
@[simp] theorem setSender_hwy (s : State) (k : SenderNo) (x : Sender) : (s.setSender k x).hwy = s.hwy := rfl
@[simp] theorem setSender_arc (s : State) (k : SenderNo) (x : Sender) : (s.setSender k x).arc = s.arc := rfl
@[simp] theorem setSender_jnl (s : State) (k : SenderNo) (x : Sender) : (s.setSender k x).jnl = s.jnl := rfl
@[simp] theorem setSender_clk (s : State) (k : SenderNo) (x : Sender) : (s.setSender k x).clk = s.clk := rfl
@[simp] theorem setSender_mem (s : State) (k : SenderNo) (x : Sender) : (s.setSender k x).mem = s.mem := rfl

/-! ### mapSenders -/

@[simp] theorem mapSenders_pending (s : State) (f : Sender → Sender) : (s.mapSenders f).pending = s.pending := rfl
@[simp] theorem mapSenders_part (s : State) (f : Sender → Sender) : (s.mapSenders f).part = s.part := rfl
@[simp] theorem mapSenders_regs (s : State) (f : Sender → Sender) : (s.mapSenders f).regs = s.regs := rfl
@[simp] theorem mapSenders_scan (s : State) (f : Sender → Sender) : (s.mapSenders f).scan = s.scan := rfl
@[simp] theorem mapSenders_lines (s : State) (f : Sender → Sender) : (s.mapSenders f).lines = s.lines := rfl
@[simp] theorem mapSenders_plan (s : State) (f : Sender → Sender) : (s.mapSenders f).plan = s.plan := rfl
@[simp] theorem mapSenders_hwy (s : State) (f : Sender → Sender) : (s.mapSenders f).hwy = s.hwy := rfl
@[simp] theorem mapSenders_arc (s : State) (f : Sender → Sender) : (s.mapSenders f).arc = s.arc := rfl
@[simp] theorem mapSenders_jnl (s : State) (f : Sender → Sender) : (s.mapSenders f).jnl = s.jnl := rfl
@[simp] theorem mapSenders_clk (s : State) (f : Sender → Sender) : (s.mapSenders f).clk = s.clk := rfl
@[simp] theorem mapSenders_mem (s : State) (f : Sender → Sender) : (s.mapSenders f).mem = s.mem := rfl

/-! ### setAttention -/

@[simp] theorem setAttention_pending (bits : BitVec 4) (s : State) : (setAttention bits s).pending = s.pending := rfl
@[simp] theorem setAttention_part (bits : BitVec 4) (s : State) : (setAttention bits s).part = s.part := rfl
@[simp] theorem setAttention_scan (bits : BitVec 4) (s : State) : (setAttention bits s).scan = s.scan := rfl
@[simp] theorem setAttention_lines (bits : BitVec 4) (s : State) : (setAttention bits s).lines = s.lines := rfl
@[simp] theorem setAttention_plan (bits : BitVec 4) (s : State) : (setAttention bits s).plan = s.plan := rfl
@[simp] theorem setAttention_pool (bits : BitVec 4) (s : State) : (setAttention bits s).pool = s.pool := rfl
@[simp] theorem setAttention_hwy (bits : BitVec 4) (s : State) : (setAttention bits s).hwy = s.hwy := rfl
@[simp] theorem setAttention_arc (bits : BitVec 4) (s : State) : (setAttention bits s).arc = s.arc := rfl
@[simp] theorem setAttention_jnl (bits : BitVec 4) (s : State) : (setAttention bits s).jnl = s.jnl := rfl
@[simp] theorem setAttention_clk (bits : BitVec 4) (s : State) : (setAttention bits s).clk = s.clk := rfl
@[simp] theorem setAttention_mem (bits : BitVec 4) (s : State) : (setAttention bits s).mem = s.mem := rfl

/-! ### enqueue -/

@[simp] theorem enqueue_pending (r : PortRequest) (s : State) : (enqueue r s).pending = s.pending := rfl
@[simp] theorem enqueue_part (r : PortRequest) (s : State) : (enqueue r s).part = s.part := rfl
@[simp] theorem enqueue_regs (r : PortRequest) (s : State) : (enqueue r s).regs = s.regs := rfl
@[simp] theorem enqueue_scan (r : PortRequest) (s : State) : (enqueue r s).scan = s.scan := rfl
@[simp] theorem enqueue_lines (r : PortRequest) (s : State) : (enqueue r s).lines = s.lines := rfl
@[simp] theorem enqueue_plan (r : PortRequest) (s : State) : (enqueue r s).plan = s.plan := rfl
@[simp] theorem enqueue_pool (r : PortRequest) (s : State) : (enqueue r s).pool = s.pool := rfl
@[simp] theorem enqueue_hwy (r : PortRequest) (s : State) : (enqueue r s).hwy = s.hwy := rfl
@[simp] theorem enqueue_jnl (r : PortRequest) (s : State) : (enqueue r s).jnl = s.jnl := rfl
@[simp] theorem enqueue_clk (r : PortRequest) (s : State) : (enqueue r s).clk = s.clk := rfl
@[simp] theorem enqueue_mem (r : PortRequest) (s : State) : (enqueue r s).mem = s.mem := rfl

/-! ### putSequence -/

@[simp] theorem putSequence_pending (q : Sequence) (s : State) : (putSequence q s).pending = s.pending := rfl
@[simp] theorem putSequence_part (q : Sequence) (s : State) : (putSequence q s).part = s.part := rfl
@[simp] theorem putSequence_regs (q : Sequence) (s : State) : (putSequence q s).regs = s.regs := rfl
@[simp] theorem putSequence_scan (q : Sequence) (s : State) : (putSequence q s).scan = s.scan := rfl
@[simp] theorem putSequence_lines (q : Sequence) (s : State) : (putSequence q s).lines = s.lines := rfl
@[simp] theorem putSequence_plan (q : Sequence) (s : State) : (putSequence q s).plan = s.plan := rfl
@[simp] theorem putSequence_pool (q : Sequence) (s : State) : (putSequence q s).pool = s.pool := rfl
@[simp] theorem putSequence_hwy (q : Sequence) (s : State) : (putSequence q s).hwy = s.hwy := rfl
@[simp] theorem putSequence_jnl (q : Sequence) (s : State) : (putSequence q s).jnl = s.jnl := rfl
@[simp] theorem putSequence_clk (q : Sequence) (s : State) : (putSequence q s).clk = s.clk := rfl
@[simp] theorem putSequence_mem (q : Sequence) (s : State) : (putSequence q s).mem = s.mem := rfl

/-! ### leaveWait -/

@[simp] theorem leaveWait_pending (n : LineNo) (s : State) : (leaveWait n s).pending = s.pending := rfl
@[simp] theorem leaveWait_part (n : LineNo) (s : State) : (leaveWait n s).part = s.part := rfl
@[simp] theorem leaveWait_regs (n : LineNo) (s : State) : (leaveWait n s).regs = s.regs := rfl
@[simp] theorem leaveWait_scan (n : LineNo) (s : State) : (leaveWait n s).scan = s.scan := rfl
@[simp] theorem leaveWait_lines (n : LineNo) (s : State) : (leaveWait n s).lines = s.lines := rfl
@[simp] theorem leaveWait_plan (n : LineNo) (s : State) : (leaveWait n s).plan = s.plan := rfl
@[simp] theorem leaveWait_hwy (n : LineNo) (s : State) : (leaveWait n s).hwy = s.hwy := rfl
@[simp] theorem leaveWait_arc (n : LineNo) (s : State) : (leaveWait n s).arc = s.arc := rfl
@[simp] theorem leaveWait_jnl (n : LineNo) (s : State) : (leaveWait n s).jnl = s.jnl := rfl
@[simp] theorem leaveWait_clk (n : LineNo) (s : State) : (leaveWait n s).clk = s.clk := rfl
@[simp] theorem leaveWait_mem (n : LineNo) (s : State) : (leaveWait n s).mem = s.mem := rfl

/-! ### joinWait -/

@[simp] theorem joinWait_pending (n : LineNo) (s : State) : (joinWait n s).pending = s.pending := rfl
@[simp] theorem joinWait_part (n : LineNo) (s : State) : (joinWait n s).part = s.part := rfl
@[simp] theorem joinWait_regs (n : LineNo) (s : State) : (joinWait n s).regs = s.regs := rfl
@[simp] theorem joinWait_scan (n : LineNo) (s : State) : (joinWait n s).scan = s.scan := rfl
@[simp] theorem joinWait_lines (n : LineNo) (s : State) : (joinWait n s).lines = s.lines := rfl
@[simp] theorem joinWait_plan (n : LineNo) (s : State) : (joinWait n s).plan = s.plan := rfl
@[simp] theorem joinWait_hwy (n : LineNo) (s : State) : (joinWait n s).hwy = s.hwy := rfl
@[simp] theorem joinWait_arc (n : LineNo) (s : State) : (joinWait n s).arc = s.arc := rfl
@[simp] theorem joinWait_jnl (n : LineNo) (s : State) : (joinWait n s).jnl = s.jnl := rfl
@[simp] theorem joinWait_clk (n : LineNo) (s : State) : (joinWait n s).clk = s.clk := rfl
@[simp] theorem joinWait_mem (n : LineNo) (s : State) : (joinWait n s).mem = s.mem := rfl

/-! ### releaseXtxd -/

@[simp] theorem releaseXtxd_pending (s : State) : (releaseXtxd s).pending = s.pending := rfl
@[simp] theorem releaseXtxd_part (s : State) : (releaseXtxd s).part = s.part := rfl
@[simp] theorem releaseXtxd_regs (s : State) : (releaseXtxd s).regs = s.regs := rfl
@[simp] theorem releaseXtxd_scan (s : State) : (releaseXtxd s).scan = s.scan := rfl
@[simp] theorem releaseXtxd_lines (s : State) : (releaseXtxd s).lines = s.lines := rfl
@[simp] theorem releaseXtxd_plan (s : State) : (releaseXtxd s).plan = s.plan := rfl
@[simp] theorem releaseXtxd_pool (s : State) : (releaseXtxd s).pool = s.pool := rfl
@[simp] theorem releaseXtxd_arc (s : State) : (releaseXtxd s).arc = s.arc := rfl
@[simp] theorem releaseXtxd_jnl (s : State) : (releaseXtxd s).jnl = s.jnl := rfl
@[simp] theorem releaseXtxd_clk (s : State) : (releaseXtxd s).clk = s.clk := rfl
@[simp] theorem releaseXtxd_mem (s : State) : (releaseXtxd s).mem = s.mem := rfl

/-! ### The start of a frame -/

@[simp] theorem openFrame_slot (h : Highway) : h.openFrame.slot = 0 := rfl
@[simp] theorem openFrame_delay (h : Highway) : h.openFrame.delay = h.delay := rfl
@[simp] theorem openFrame_xtxd (h : Highway) : h.openFrame.xtxd = h.xtxd := rfl
theorem openFrame_delayed (h : Highway) (n : LineNo) : h.openFrame.delayed[n] = h.delay[n].headD 0 := by
  simp [Highway.openFrame]

/-! ### portIdle -/

@[simp] theorem portIdle_pending (s : State) : (portIdle s).pending = s.pending := rfl
@[simp] theorem portIdle_part (s : State) : (portIdle s).part = s.part := rfl
@[simp] theorem portIdle_regs (s : State) : (portIdle s).regs = s.regs := rfl
@[simp] theorem portIdle_scan (s : State) : (portIdle s).scan = s.scan := rfl
@[simp] theorem portIdle_lines (s : State) : (portIdle s).lines = s.lines := rfl
@[simp] theorem portIdle_plan (s : State) : (portIdle s).plan = s.plan := rfl
@[simp] theorem portIdle_pool (s : State) : (portIdle s).pool = s.pool := rfl
@[simp] theorem portIdle_hwy (s : State) : (portIdle s).hwy = s.hwy := rfl
@[simp] theorem portIdle_jnl (s : State) : (portIdle s).jnl = s.jnl := rfl
@[simp] theorem portIdle_clk (s : State) : (portIdle s).clk = s.clk := rfl
@[simp] theorem portIdle_mem (s : State) : (portIdle s).mem = s.mem := rfl
@[simp] theorem line_setAttention (bits : BitVec 4) (s : State) (n : LineNo) : (setAttention bits s).line n = s.line n := rfl
@[simp] theorem sender_setAttention (bits : BitVec 4) (s : State) (k : SenderNo) : (setAttention bits s).sender k = s.sender k := rfl
@[simp] theorem line_enqueue (r : PortRequest) (s : State) (n : LineNo) : (enqueue r s).line n = s.line n := rfl
@[simp] theorem sender_enqueue (r : PortRequest) (s : State) (k : SenderNo) : (enqueue r s).sender k = s.sender k := rfl
@[simp] theorem line_putSequence (q : Sequence) (s : State) (n : LineNo) : (putSequence q s).line n = s.line n := rfl
@[simp] theorem sender_putSequence (q : Sequence) (s : State) (k : SenderNo) : (putSequence q s).sender k = s.sender k := rfl
@[simp] theorem line_leaveWait (m : LineNo) (s : State) (n : LineNo) : (leaveWait m s).line n = s.line n := rfl
@[simp] theorem sender_leaveWait (m : LineNo) (s : State) (k : SenderNo) : (leaveWait m s).sender k = s.sender k := rfl
@[simp] theorem line_joinWait (m : LineNo) (s : State) (n : LineNo) : (joinWait m s).line n = s.line n := rfl
@[simp] theorem sender_joinWait (m : LineNo) (s : State) (k : SenderNo) : (joinWait m s).sender k = s.sender k := rfl
@[simp] theorem line_releaseXtxd (s : State) (n : LineNo) : (releaseXtxd s).line n = s.line n := rfl
@[simp] theorem sender_releaseXtxd (s : State) (k : SenderNo) : (releaseXtxd s).sender k = s.sender k := rfl
@[simp] theorem line_portIdle (s : State) (n : LineNo) : (portIdle s).line n = s.line n := rfl
@[simp] theorem sender_portIdle (s : State) (k : SenderNo) : (portIdle s).sender k = s.sender k := rfl

@[simp] theorem leaveWait_joins (n : LineNo) (s : State) : (leaveWait n s).pool.joins = s.pool.joins := rfl

@[simp] theorem setAttention_attention (bits : BitVec 4) (s : State) :
    (setAttention bits s).regs.attention = s.regs.attention ||| bits := rfl
@[simp] theorem setAttention_areaBase (bits : BitVec 4) (s : State) : (setAttention bits s).regs.areaBase = s.regs.areaBase := rfl
@[simp] theorem setAttention_resetCause (bits : BitVec 4) (s : State) : (setAttention bits s).regs.resetCause = s.regs.resetCause := rfl
@[simp] theorem setAttention_powerOnFlag (bits : BitVec 4) (s : State) : (setAttention bits s).regs.powerOnFlag = s.regs.powerOnFlag := rfl
@[simp] theorem setAttention_faultCode (bits : BitVec 4) (s : State) : (setAttention bits s).regs.faultCode = s.regs.faultCode := rfl

@[simp] theorem enqueue_arc (r : PortRequest) (s : State) :
    (enqueue r s).arc = { s.arc with queue := s.arc.queue ++ [r] } := rfl
@[simp] theorem putSequence_arc (q : Sequence) (s : State) :
    (putSequence q s).arc = { s.arc with inFlight := some q } := rfl

end Sys2Proof.Machine
end

