-- ==== Sys2Proof/Laws/Records.lean ====
section
/-! SUPPORT. Handing records over (R192, R194): what requestJournal and handOver change, and how Recorded composes. -/

namespace Sys2Proof.Machine

/-! ### requestJournal and requestVisit change the port queue alone -/

/-- requestJournal either leaves the state or puts a journal request at the tail of the queue. -/
theorem requestJournal_cases (s : State) :
    (journalWanted s = true ∧ requestJournal s = enqueue .journal s) ∨ (journalWanted s = false ∧ requestJournal s = s) := by
  unfold requestJournal
  cases h : journalWanted s <;> simp

/-- requestVisit either leaves the state or puts a visit at the tail of the queue. -/
theorem requestVisit_cases (s : State) : requestVisit s = enqueue .visit s ∨ requestVisit s = s := by
  unfold requestVisit
  split
  · exact .inl rfl
  · exact .inr rfl

@[simp] theorem requestJournal_pending (s : State) : (requestJournal s).pending = s.pending := by
  unfold requestJournal; split <;> rfl
@[simp] theorem requestJournal_part (s : State) : (requestJournal s).part = s.part := by
  unfold requestJournal; split <;> rfl
@[simp] theorem requestJournal_regs (s : State) : (requestJournal s).regs = s.regs := by
  unfold requestJournal; split <;> rfl
@[simp] theorem requestJournal_scan (s : State) : (requestJournal s).scan = s.scan := by
  unfold requestJournal; split <;> rfl
@[simp] theorem requestJournal_lines (s : State) : (requestJournal s).lines = s.lines := by
  unfold requestJournal; split <;> rfl
@[simp] theorem requestJournal_plan (s : State) : (requestJournal s).plan = s.plan := by
  unfold requestJournal; split <;> rfl
@[simp] theorem requestJournal_pool (s : State) : (requestJournal s).pool = s.pool := by
  unfold requestJournal; split <;> rfl
@[simp] theorem requestJournal_hwy (s : State) : (requestJournal s).hwy = s.hwy := by
  unfold requestJournal; split <;> rfl
@[simp] theorem requestJournal_clk (s : State) : (requestJournal s).clk = s.clk := by
  unfold requestJournal; split <;> rfl
@[simp] theorem requestJournal_mem (s : State) : (requestJournal s).mem = s.mem := by
  unfold requestJournal; split <;> rfl
@[simp] theorem requestJournal_jnl (s : State) : (requestJournal s).jnl = s.jnl := by
  unfold requestJournal; split <;> rfl
@[simp] theorem line_requestJournal (s : State) (n : LineNo) : (requestJournal s).line n = s.line n := by
  unfold requestJournal; split <;> rfl
@[simp] theorem sender_requestJournal (s : State) (n : SenderNo) : (requestJournal s).sender n = s.sender n := by
  unfold requestJournal; split <;> rfl
@[simp] theorem requestJournal_arc_port (s : State) : (requestJournal s).arc.port = s.arc.port := by
  unfold requestJournal; split <;> rfl
@[simp] theorem requestJournal_arc_inFlight (s : State) : (requestJournal s).arc.inFlight = s.arc.inFlight := by
  unfold requestJournal; split <;> rfl
@[simp] theorem requestJournal_arc_base (s : State) : (requestJournal s).arc.base = s.arc.base := by
  unfold requestJournal; split <;> rfl
@[simp] theorem requestJournal_arc_sweep (s : State) : (requestJournal s).arc.sweep = s.arc.sweep := by
  unfold requestJournal; split <;> rfl
@[simp] theorem requestJournal_arc_busWait (s : State) : (requestJournal s).arc.busWait = s.arc.busWait := by
  unfold requestJournal; split <;> rfl
@[simp] theorem requestJournal_arc_haltTaken (s : State) : (requestJournal s).arc.haltTaken = s.arc.haltTaken := by
  unfold requestJournal; split <;> rfl
@[simp] theorem requestJournal_arc_planTakenUp (s : State) : (requestJournal s).arc.planTakenUp = s.arc.planTakenUp := by
  unfold requestJournal; split <;> rfl
@[simp] theorem requestJournal_arc_loadOutcome (s : State) : (requestJournal s).arc.loadOutcome = s.arc.loadOutcome := by
  unfold requestJournal; split <;> rfl
@[simp] theorem requestJournal_arc_loadIgnored (s : State) : (requestJournal s).arc.loadIgnored = s.arc.loadIgnored := by
  unfold requestJournal; split <;> rfl
@[simp] theorem requestVisit_pending (s : State) : (requestVisit s).pending = s.pending := by
  unfold requestVisit; split <;> rfl
@[simp] theorem requestVisit_part (s : State) : (requestVisit s).part = s.part := by
  unfold requestVisit; split <;> rfl
@[simp] theorem requestVisit_regs (s : State) : (requestVisit s).regs = s.regs := by
  unfold requestVisit; split <;> rfl
@[simp] theorem requestVisit_scan (s : State) : (requestVisit s).scan = s.scan := by
  unfold requestVisit; split <;> rfl
@[simp] theorem requestVisit_lines (s : State) : (requestVisit s).lines = s.lines := by
  unfold requestVisit; split <;> rfl
@[simp] theorem requestVisit_plan (s : State) : (requestVisit s).plan = s.plan := by
  unfold requestVisit; split <;> rfl
@[simp] theorem requestVisit_pool (s : State) : (requestVisit s).pool = s.pool := by
  unfold requestVisit; split <;> rfl
@[simp] theorem requestVisit_hwy (s : State) : (requestVisit s).hwy = s.hwy := by
  unfold requestVisit; split <;> rfl
@[simp] theorem requestVisit_clk (s : State) : (requestVisit s).clk = s.clk := by
  unfold requestVisit; split <;> rfl
@[simp] theorem requestVisit_mem (s : State) : (requestVisit s).mem = s.mem := by
  unfold requestVisit; split <;> rfl
@[simp] theorem requestVisit_jnl (s : State) : (requestVisit s).jnl = s.jnl := by
  unfold requestVisit; split <;> rfl
@[simp] theorem line_requestVisit (s : State) (n : LineNo) : (requestVisit s).line n = s.line n := by
  unfold requestVisit; split <;> rfl
@[simp] theorem sender_requestVisit (s : State) (n : SenderNo) : (requestVisit s).sender n = s.sender n := by
  unfold requestVisit; split <;> rfl
@[simp] theorem requestVisit_arc_port (s : State) : (requestVisit s).arc.port = s.arc.port := by
  unfold requestVisit; split <;> rfl
@[simp] theorem requestVisit_arc_inFlight (s : State) : (requestVisit s).arc.inFlight = s.arc.inFlight := by
  unfold requestVisit; split <;> rfl
@[simp] theorem requestVisit_arc_base (s : State) : (requestVisit s).arc.base = s.arc.base := by
  unfold requestVisit; split <;> rfl
@[simp] theorem requestVisit_arc_sweep (s : State) : (requestVisit s).arc.sweep = s.arc.sweep := by
  unfold requestVisit; split <;> rfl
@[simp] theorem requestVisit_arc_busWait (s : State) : (requestVisit s).arc.busWait = s.arc.busWait := by
  unfold requestVisit; split <;> rfl
@[simp] theorem requestVisit_arc_haltTaken (s : State) : (requestVisit s).arc.haltTaken = s.arc.haltTaken := by
  unfold requestVisit; split <;> rfl
@[simp] theorem requestVisit_arc_planTakenUp (s : State) : (requestVisit s).arc.planTakenUp = s.arc.planTakenUp := by
  unfold requestVisit; split <;> rfl
@[simp] theorem requestVisit_arc_loadOutcome (s : State) : (requestVisit s).arc.loadOutcome = s.arc.loadOutcome := by
  unfold requestVisit; split <;> rfl
@[simp] theorem requestVisit_arc_loadIgnored (s : State) : (requestVisit s).arc.loadIgnored = s.arc.loadIgnored := by
  unfold requestVisit; split <;> rfl

/-! ### Staging -/

/-- Staging keeps every field of the Journal Unit but the FIFO and the gap count. -/
theorem JournalUnit.stage_eq (j : JournalUnit) (r : Record) :
    j.stage r = { j with staging := (j.stage r).staging, gap := (j.stage r).gap } := by
  unfold JournalUnit.stage; split <;> rfl

@[simp] theorem JournalUnit.stage_holdOff (j : JournalUnit) (r : Record) : (j.stage r).holdOff = j.holdOff := by
  unfold JournalUnit.stage; split <;> rfl

/-- After a record is handed over, staging holds at least one. -/
theorem JournalUnit.stage_ne_nil (j : JournalUnit) (r : Record) : (j.stage r).staging ≠ [] := by
  unfold JournalUnit.stage
  split
  · simp
  · rename_i h
    intro h'
    simp [show j.staging = [] from h'] at h

theorem stages_holdOff (rs : List Record) (j : JournalUnit) : (rs.foldl JournalUnit.stage j).holdOff = j.holdOff := by
  induction rs generalizing j with
  | nil => rfl
  | cons r rest ih => simp [ih]

/-! ### Recorded -/

theorem Recorded.refl (s : State) : Recorded [] s s := by simp [Recorded]

theorem recorded_nil {s t : State} : Recorded [] s t ↔ t.jnl = s.jnl ∧ t.arc = s.arc := by simp [Recorded]

/-- Records handed over in two runs are handed over in one. -/
theorem Recorded.trans {rs rs' : List Record} {s t u : State} (h : Recorded rs s t) (h' : Recorded rs' t u) :
    Recorded (rs ++ rs') s u := by
  obtain ⟨hj, ha⟩ := h
  obtain ⟨hj', ha'⟩ := h'
  refine ⟨by rw [hj', hj, List.foldl_append], ?_⟩
  have hh : t.jnl.holdOff = s.jnl.holdOff := by rw [hj, stages_holdOff]
  rw [ha', hh]
  by_cases hn : rs = []
  · subst hn; simp at ha; simp [ha]
  · split at ha
    · rename_i hc
      have : ¬ (PortRequest.journal ∉ t.arc.queue) := by simp [ha]
      rw [if_neg (fun h => this h.2.2.1), ha, if_pos ⟨by simp [hn], hc.2⟩]
    · rename_i hc
      rw [ha, if_neg, if_neg]
      · intro h; exact hc ⟨hn, h.2⟩
      · intro h; exact hc ⟨hn, h.2⟩

/-- Recorded reads the Journal Unit and the Area Controller alone. -/
theorem Recorded.congr {rs : List Record} {s s' t t' : State} (h : Recorded rs s t) (hs : s'.jnl = s.jnl ∧ s'.arc = s.arc)
    (ht : t'.jnl = t.jnl ∧ t'.arc = t.arc) : Recorded rs s' t' := by
  obtain ⟨hj, ha⟩ := h
  exact ⟨by rw [ht.1, hj, hs.1], by rw [ht.2, ha, hs.1, hs.2]⟩

/-- Handing a record over records it, and changes nothing else. -/
theorem handOver_recorded (r : Record) (s : State) : Recorded [r] s (handOver r s) := by
  refine ⟨by simp [handOver], ?_⟩
  have hs := JournalUnit.stage_ne_nil s.jnl r
  unfold handOver requestJournal journalWanted enqueue
  by_cases h1 : s.arc.port = .running <;> by_cases h2 : PortRequest.journal ∈ s.arc.queue
    <;> cases h3 : s.arc.journalling <;> cases h4 : s.jnl.holdOff <;> simp_all

@[simp] theorem handOver_pending (r : Record) (s : State) : (handOver r s).pending = s.pending := by
  simp [handOver]
@[simp] theorem handOver_part (r : Record) (s : State) : (handOver r s).part = s.part := by
  simp [handOver]
@[simp] theorem handOver_regs (r : Record) (s : State) : (handOver r s).regs = s.regs := by
  simp [handOver]
@[simp] theorem handOver_scan (r : Record) (s : State) : (handOver r s).scan = s.scan := by
  simp [handOver]
@[simp] theorem handOver_lines (r : Record) (s : State) : (handOver r s).lines = s.lines := by
  simp [handOver]
@[simp] theorem handOver_plan (r : Record) (s : State) : (handOver r s).plan = s.plan := by
  simp [handOver]
@[simp] theorem handOver_pool (r : Record) (s : State) : (handOver r s).pool = s.pool := by
  simp [handOver]
@[simp] theorem handOver_hwy (r : Record) (s : State) : (handOver r s).hwy = s.hwy := by
  simp [handOver]
@[simp] theorem handOver_clk (r : Record) (s : State) : (handOver r s).clk = s.clk := by
  simp [handOver]
@[simp] theorem handOver_mem (r : Record) (s : State) : (handOver r s).mem = s.mem := by
  simp [handOver]
@[simp] theorem line_handOver (r : Record) (s : State) (n : LineNo) : (handOver r s).line n = s.line n := by
  simp [handOver, State.line]
@[simp] theorem sender_handOver (r : Record) (s : State) (n : SenderNo) : (handOver r s).sender n = s.sender n := by
  simp [handOver, State.sender]
@[simp] theorem handOver_jnl (r : Record) (s : State) : (handOver r s).jnl = s.jnl.stage r := by
  simp [handOver]

end Sys2Proof.Machine
end

