-- ==== Sys2Proof/Laws/Frames.lean ====
section
/-! SUPPORT. What the shared operations over a line, the wait list and the senders leave as it was: one lemma for each, of
one shape. -/

namespace Sys2Proof.Machine

/-! ### The frames compose -/

theorem OtherBlocksSame.refl (s : State) : OtherBlocksSame s s := ⟨rfl, rfl, rfl, rfl, rfl, rfl, rfl, rfl⟩

theorem OtherBlocksSame.trans {s t u : State} (h : OtherBlocksSame s t) (h' : OtherBlocksSame t u) :
    OtherBlocksSame s u := by
  obtain ⟨a, b, c, d, e, f, g, i⟩ := h
  obtain ⟨a', b', c', d', e', f', g', i'⟩ := h'
  exact ⟨a'.trans a, b'.trans b, c'.trans c, d'.trans d, e'.trans e, f'.trans f, g'.trans g, i'.trans i⟩

theorem SameButSender.refl (l : Line) : SameButSender l l := rfl

theorem SameButSender.trans {l l' l'' : Line} (h : SameButSender l l') (h' : SameButSender l' l'') :
    SameButSender l l'' := by
  unfold SameButSender at *
  rw [h'.trans (by rw [h])]

theorem SameButSender.symm {l l' : Line} (h : SameButSender l l') : SameButSender l' l := by
  unfold SameButSender at *
  rw [h]

/-- Changing the attached-sender field alone. -/
theorem sameButSender_attached (l : Line) (a : Option SenderNo) : SameButSender l { l with attached := a } := rfl

/-- Every line record is as it was but for its attached-sender field. -/
def AllLinesSameButSenders (s t : State) : Prop := ∀ m, SameButSender (s.line m) (t.line m)

theorem AllLinesSameButSenders.others {s t : State} (h : AllLinesSameButSenders s t) (n : LineNo) :
    OtherLinesSameButSenders n s t := fun m _ => h m

theorem OtherLinesSameButSenders.refl (n : LineNo) (s : State) : OtherLinesSameButSenders n s s := fun _ _ => rfl

theorem OtherLinesSameButSenders.trans {n : LineNo} {s t u : State} (h : OtherLinesSameButSenders n s t)
    (h' : OtherLinesSameButSenders n t u) : OtherLinesSameButSenders n s u := fun m hm => (h m hm).trans (h' m hm)

theorem OtherLinesSame.butSenders {n : LineNo} {s t : State} (h : OtherLinesSame n s t) :
    OtherLinesSameButSenders n s t := fun m hm => by rw [h m hm]; rfl

/-- A step of line n reaches no other block, and no other line but for grants. -/
def LineEvent (n : LineNo) (s t : State) : Prop := OtherBlocksSame s t ∧ OtherLinesSameButSenders n s t

theorem LineEvent.refl (n : LineNo) (s : State) : LineEvent n s s := ⟨.refl s, .refl n s⟩

theorem LineEvent.trans {n : LineNo} {s t u : State} (h : LineEvent n s t) (h' : LineEvent n t u) : LineEvent n s u :=
  ⟨h.1.trans h'.1, h.2.trans h'.2⟩

theorem lineEvent_setLine (n : LineNo) (s : State) (l : Line) : LineEvent n s (s.setLine n l) :=
  ⟨⟨rfl, rfl, rfl, rfl, rfl, rfl, rfl, rfl⟩, fun m hm => by simp [hm, SameButSender]⟩

/-- An operation of the pool: no other block, no record, and no line but for attached-sender fields. -/
def PoolEvent (s t : State) : Prop :=
  OtherBlocksSame s t ∧ AllLinesSameButSenders s t ∧ t.jnl = s.jnl ∧ t.arc = s.arc

theorem PoolEvent.refl (s : State) : PoolEvent s s := ⟨.refl s, fun _ => rfl, rfl, rfl⟩

theorem PoolEvent.trans {s t u : State} (h : PoolEvent s t) (h' : PoolEvent t u) : PoolEvent s u :=
  ⟨h.1.trans h'.1, fun m => (h.2.1 m).trans (h'.2.1 m), h'.2.2.1.trans h.2.2.1, h'.2.2.2.trans h.2.2.2⟩

theorem PoolEvent.lineEvent {s t : State} (h : PoolEvent s t) (n : LineNo) : LineEvent n s t := ⟨h.1, h.2.1.others n⟩

theorem PoolEvent.recorded {s t : State} (h : PoolEvent s t) : Recorded [] s t := recorded_nil.2 h.2.2

/-! ### The wait list and the arbiter -/

theorem leaveWait_event (n : LineNo) (s : State) : PoolEvent s (leaveWait n s) :=
  ⟨⟨rfl, rfl, rfl, rfl, rfl, rfl, rfl, rfl⟩, fun _ => rfl, rfl, rfl⟩

theorem joinWait_event (n : LineNo) (s : State) : PoolEvent s (joinWait n s) :=
  ⟨⟨rfl, rfl, rfl, rfl, rfl, rfl, rfl, rfl⟩, fun _ => rfl, rfl, rfl⟩

theorem requeue_event (n : LineNo) (s : State) : PoolEvent s (requeue n s) := by
  unfold requeue
  split
  · exact ⟨⟨rfl, rfl, rfl, rfl, rfl, rfl, rfl, rfl⟩, fun _ => rfl, rfl, rfl⟩
  · exact .refl s

@[simp] theorem line_requeue (n m : LineNo) (s : State) : (requeue n s).line m = s.line m := by
  unfold requeue; split <;> rfl

/-- A grant changes one sender and the attached-sender field of one line (R131). -/
theorem attach_event (b : Bool) (k : SenderNo) (n : LineNo) (s : State) : PoolEvent s (attach b k n s) := by
  refine ⟨⟨rfl, rfl, rfl, rfl, rfl, rfl, rfl, rfl⟩, fun m => ?_, rfl, rfl⟩
  by_cases h : m = n
  · subst h; simp [attach, SameButSender]
  · simp [attach, h, SameButSender]

theorem grantOne_event (b : Bool) (s : State) : PoolEvent s (grantOne b s) := by
  unfold grantOne
  split
  · exact (leaveWait_event _ s).trans (attach_event b _ _ _)
  · exact .refl s

theorem grantMany_event (b : Bool) (fuel : Nat) (s : State) : PoolEvent s (grantMany b fuel s) := by
  induction fuel generalizing s with
  | zero => exact .refl s
  | succ fuel ih => exact (grantOne_event b s).trans (ih _)

theorem arbitrate_event (b : Bool) (s : State) : PoolEvent s (arbitrate b s) := grantMany_event b 16 s

theorem joinTest_event (n : LineNo) (s : State) : PoolEvent s (joinTest n s) := by
  unfold joinTest
  split
  · exact (joinWait_event n s).trans (arbitrate_event false _)
  · exact .refl s

/-! ### Freeing a sender -/

/-- What detaching a sender does: the sender FREE, its line without one, everything else as it was. -/
theorem detach_spec (k : SenderNo) (n : LineNo) (s : State) :
    OtherBlocksSame s (detach k n s) ∧ AllLinesSameButSenders s (detach k n s)
      ∧ ((detach k n s).line n).attached = none ∧ (detach k n s).sender k = Sender.reset := by
  refine ⟨by simp [OtherBlocksSame, detach], fun m => ?_, by simp [detach]⟩
  by_cases h : m = n
  · subst h; simp [detach, SameButSender]
  · simp [detach, h, SameButSender]

theorem freeSender_spec (k : SenderNo) (n : LineNo) (reason : SendReason) (d : DevTime) (s : State) :
    OtherBlocksSame s (freeSender k n reason d s) ∧ AllLinesSameButSenders s (freeSender k n reason d s)
      ∧ Recorded [sendDone k n reason d s] s (freeSender k n reason d s)
      ∧ ((freeSender k n reason d s).line n).attached = none
      ∧ (freeSender k n reason d s).sender k = Sender.reset := by
  obtain ⟨hb, hl, ha, hk⟩ := detach_spec k n s
  refine ⟨?_, fun m => ?_, ?_, by simpa [freeSender] using ha, by simpa [freeSender] using hk⟩
  · simpa [freeSender, OtherBlocksSame] using hb
  · simpa [freeSender] using hl m
  · exact (handOver_recorded (sendDone k n reason d s) (detach k n s)).congr ⟨rfl, rfl⟩ ⟨rfl, rfl⟩

/-- The records a cut hands over: one SEND_DONE when a sender is attached (R139). -/
def cutRecords (n : LineNo) (d : DevTime) (s : State) : List Record :=
  match (s.line n).attached with
  | some k => [sendDone k n .cut d s]
  | none => []

theorem cutSender_spec (n : LineNo) (d : DevTime) (s : State) :
    OtherBlocksSame s (cutSender n d s) ∧ AllLinesSameButSenders s (cutSender n d s)
      ∧ Recorded (cutRecords n d s) s (cutSender n d s) := by
  cases h : (s.line n).attached with
  | some k =>
    simp only [cutSender, cutRecords, h]
    obtain ⟨hb, hl, hr, -, -⟩ := freeSender_spec k n .cut d s
    have ha := arbitrate_event false (freeSender k n .cut d s)
    exact ⟨hb.trans ha.1, fun m => (hl m).trans (ha.2.1 m), by simpa using hr.trans ha.recorded⟩
  | none =>
    simp only [cutSender, cutRecords, h]
    exact ⟨.refl s, fun _ => rfl, .refl s⟩

/-! ### Line operations that hand records over -/

/-- What an event of line n with records rs leaves behind. -/
def LineRecords (n : LineNo) (rs : List Record) (s t : State) : Prop := LineEvent n s t ∧ Recorded rs s t

theorem LineRecords.refl (n : LineNo) (s : State) : LineRecords n [] s s := ⟨.refl n s, .refl s⟩

theorem LineRecords.trans {n : LineNo} {rs rs' : List Record} {s t u : State} (h : LineRecords n rs s t)
    (h' : LineRecords n rs' t u) : LineRecords n (rs ++ rs') s u := ⟨h.1.trans h'.1, h.2.trans h'.2⟩

theorem PoolEvent.records {s t : State} (h : PoolEvent s t) (n : LineNo) : LineRecords n [] s t :=
  ⟨h.lineEvent n, h.recorded⟩

theorem setLine_records (n : LineNo) (s : State) (l : Line) : LineRecords n [] s (s.setLine n l) :=
  ⟨lineEvent_setLine n s l, recorded_nil.2 ⟨rfl, rfl⟩⟩

theorem handOver_records (n : LineNo) (r : Record) (s : State) : LineRecords n [r] s (handOver r s) :=
  ⟨⟨by simp [OtherBlocksSame], fun m _ => by simp [SameButSender]⟩,
    handOver_recorded r s⟩

theorem cutSender_records (n : LineNo) (d : DevTime) (s : State) : LineRecords n (cutRecords n d s) s (cutSender n d s) :=
  ⟨⟨(cutSender_spec n d s).1, (cutSender_spec n d s).2.1.others n⟩, (cutSender_spec n d s).2.2⟩

/-- A suspension: the line record of R27, off the wait list, one EXCEPTION record (R88, R89). -/
theorem suspendLine_spec (n : LineNo) (set : CondSet) (target : ResumeTarget) (prior : MainState) (d : DevTime)
    (s : State) :
    LineRecords n [lineRecord n d (.exception ((s.line n).trapped set) prior)] s (suspendLine n set target prior d s)
      ∧ (suspendLine n set target prior d s).line n = (s.line n).suspend target
      ∧ (suspendLine n set target prior d s).pool = (leaveWait n s).pool := by
  refine ⟨?_, by simp [suspendLine], by simp [suspendLine, leaveWait]⟩
  exact ((setLine_records n s _).trans ((leaveWait_event n _).records n)).trans (handOver_records n _ _)

/-- The records an evaluated set hands over: an EXCEPTION when a member is trapped (R87, R88). -/
def raisedRecords (n : LineNo) (set : CondSet) (d : DevTime) (s : State) : List Record :=
  if (s.line n).traps set then [lineRecord n d (.exception ((s.line n).trapped set) (s.line n).main)] else []

@[simp] theorem applySet_adopted (b : Bool) (set : CondSet) (l : Line) : (l.applySet b set).adopted = l.adopted := rfl

@[simp] theorem applySet_trapped (b : Bool) (set set' : CondSet) (l : Line) :
    (l.applySet b set).trapped set' = l.trapped set' := rfl

/-- An event whose set is not trapped goes on; one whose set is trapped suspends the line (R87, R88). -/
theorem raiseSet_spec (n : LineNo) (b : Bool) (set : CondSet) (d : DevTime) (s : State) :
    LineRecords n (raisedRecords n set d s) s (raiseSet n b set d s)
      ∧ (raiseSet n b set d s).line n
        = (if (s.line n).traps set then ((s.line n).applySet b set).suspend (resumeTargetOf (s.line n).main)
            else (s.line n).applySet b set)
      ∧ (raiseSet n b set d s).pool = (if (s.line n).traps set then (leaveWait n s).pool else s.pool) := by
  cases h : (s.line n).traps set
  · simp only [raiseSet, raisedRecords, h, Bool.false_eq_true, if_false]
    exact ⟨setLine_records n s _, by simp, by simp⟩
  · simp only [raiseSet, raisedRecords, h, if_true]
    obtain ⟨hr, hl, hp⟩ := suspendLine_spec n set (resumeTargetOf (s.line n).main) (s.line n).main d
      (s.setLine n ((s.line n).applySet b set))
    refine ⟨?_, by simpa using hl, by simpa [leaveWait] using hp⟩
    have := (setLine_records n s ((s.line n).applySet b set)).trans hr
    simpa using this

/-- The same under the profile adopted, in the terms the statements use (R27, R85 to R89). -/
theorem raiseSet_afterSet {p : Profile} (n : LineNo) (b : Bool) (set : CondSet) (d : DevTime) (s : State)
    (hp : (s.line n).adopted = some p) :
    LineRecords n (setRecords n d p set (s.line n).main) s (raiseSet n b set d s)
      ∧ (raiseSet n b set d s).line n = afterSet p b set (s.line n) := by
  obtain ⟨hr, hl, -⟩ := raiseSet_spec n b set d s
  have ht : (s.line n).trapped set = set &&& p.trapMask := by simp [Line.trapped, Line.trapMask, hp]
  have hb : (s.line n).traps set = true ↔ ¬ (set &&& p.trapMask = 0) := by simp [Line.traps, ht]
  rw [hl]
  by_cases h : set &&& p.trapMask = 0
  · have hf : (s.line n).traps set = false := by rw [Bool.eq_false_iff, Ne, hb]; simpa using h
    refine ⟨by simpa [raisedRecords, setRecords, h, hf] using hr, ?_⟩
    simp [hf, afterSet, h, Line.applySet]
  · have hf : (s.line n).traps set = true := hb.mpr h
    refine ⟨?_, ?_⟩
    · simpa only [raisedRecords, setRecords, if_neg h, if_pos hf, ht, lineRecord] using hr
    · simp only [afterSet, if_neg h, if_pos hf, Line.applySet, Line.suspend, Line.dropTrain, suspendedLine, trainIdle,
        resumeTargetOf]

/-- The records of a pending adoption (R35, R173). -/
def adoptRecords (n : LineNo) (d : DevTime) (s : State) : List Record :=
  match (s.line n).pendingProfile with
  | some _ => [lineRecord n d (.profile ((s.line n).profileEdition.getD 0) .adopted)]
  | none => []

/-- A pending profile is adopted with its PROFILE record; with none pending nothing happens (R35). -/
theorem adoptPending_spec (n : LineNo) (d : DevTime) (s : State) :
    LineRecords n (adoptRecords n d s) s (adoptPending n d s)
      ∧ (adoptPending n d s).line n = (match (s.line n).pendingProfile with
        | some p => (s.line n).adopt p
        | none => s.line n)
      ∧ (adoptPending n d s).pool = s.pool := by
  cases h : (s.line n).pendingProfile with
  | some p =>
    simp only [adoptPending, adoptRecords, h]
    exact ⟨(setLine_records n s _).trans (handOver_records n _ _), by simp, by simp⟩
  | none =>
    simp only [adoptPending, adoptRecords, h]
    exact ⟨.refl n s, trivial, trivial⟩

/-- The release effects: the line record of R23 but for its sender, and the SEND_DONE of a cut. -/
theorem releaseEffects_spec (n : LineNo) (m : MainState) (d : DevTime) (s : State) :
    LineRecords n (cutRecords n d s) s (releaseEffects n m d s)
      ∧ SameButSender ((s.line n).releaseTo m) ((releaseEffects n m d s).line n) := by
  unfold releaseEffects
  have h1 := (setLine_records n s ((s.line n).releaseTo m)).trans ((leaveWait_event n _).records n)
  have h2 := cutSender_records n d (leaveWait n (s.setLine n ((s.line n).releaseTo m)))
  have he : cutRecords n d (leaveWait n (s.setLine n ((s.line n).releaseTo m))) = cutRecords n d s := by
    simp [cutRecords, sendDone, Line.releaseTo, Line.dropTrain]
  refine ⟨?_, ?_⟩
  · have := h1.trans h2
    simpa [he] using this
  · have := (cutSender_spec n d (leaveWait n (s.setLine n ((s.line n).releaseTo m)))).2.1 n
    simpa using this

/-- A class raise moves the line among the URGENT entries and sets its class (R105, R129). -/
theorem raiseClass_records (n : LineNo) (ev : Evaluation) (s : State) : LineRecords n [] s (raiseClass n ev s) := by
  unfold raiseClass
  split
  · split
    · exact (setLine_records n s _).trans ((requeue_event n _).records n)
    · exact .refl n s
  · exact .refl n s

/-- The class after a raise. -/
theorem raiseClass_line (n : LineNo) (ev : Evaluation) (s : State) :
    (raiseClass n ev s).line n = { s.line n with
      cls := if (match ev.selected with | some x => x.2.cls | none => .normal) = .urgent then .urgent
        else (s.line n).cls } := by
  unfold raiseClass
  rcases hs : ev.selected with _ | ⟨i, e⟩
  · simp
  · simp only
    by_cases hc : e.cls = .urgent
    · cases hl : (s.line n).cls
      · simp [hc]
      · have he : ({ s.line n with cls := .urgent } : Line) = s.line n := by rw [← hl]
        simp [hc, he]
    · simp [hc]

theorem offerTo_records (n : LineNo) (ks : List StoredKey) (s : State) : LineRecords n [] s (offerTo n ks s) :=
  setLine_records n s _

end Sys2Proof.Machine
end

