-- ==== Sys2Proof/Laws/Calls.lean ====
section
/-! SUPPORT. The larger operations of a line: completion, release, block and unblock, and the request step. -/

namespace Sys2Proof.Machine

/-! ### Key stores (R120, R121) -/

/-- An offer never brings a store above 32 keys. -/
theorem offer_length (ks store : List StoredKey) (h : store.length ≤ 32) : (offer ks store).length ≤ 32 := by
  simp [offer, Config.storeRoom]; omega

/-- An offer that fits is taken whole. -/
theorem offer_fits (ks store : List StoredKey) (h : store.length + ks.length ≤ 32) : offer ks store = store ++ ks := by
  have : ks.length ≤ 32 - store.length := by omega
  simp [offer, Config.storeRoom, List.take_of_length_le this]

/-- A full store drops what is offered. -/
theorem offer_full (ks store : List StoredKey) (h : 32 ≤ store.length) : offer ks store = store := by
  have : 32 - store.length = 0 := by omega
  simp [offer, Config.storeRoom, this]

/-! ### Completion (R111) -/

/-- The records of a completion: NUMBER, then EXCEPTION when its set is trapped (R111). -/
def completionRecords (n : LineNo) (p : Profile) (o : NumberOutcome) (ev : Evaluation) (d : DevTime) (s : State) :
    List Record :=
  let l := s.line n
  let set := completionSet o (offerDrops (completionKeys p ev l.digits) l.store)
  lineRecord n d (.number o l.digits.length (ev.selected.map (·.1)) l.cls set)
    :: (if l.traps set then [lineRecord n d (.exception (l.trapped set) .collecting)] else [])

/-- The line record after a completion, but for its attached-sender field (R25, R27, R91, R111). -/
def completedLine (p : Profile) (o : NumberOutcome) (ev : Evaluation) (l : Line) : Line :=
  let ks := completionKeys p ev l.digits
  let set := completionSet o (offerDrops ks l.store)
  let l1 := { l with store := offer ks l.store, main := .through, digits := [], completionTimer := none }
  if l.traps set then l1.suspend .through else { l1 with sticky := l1.sticky ||| set }

theorem completeNumber_spec (n : LineNo) (p : Profile) (o : NumberOutcome) (ev : Evaluation) (d : DevTime) (s : State) :
    LineRecords n (completionRecords n p o ev d s) s (completeNumber n p o ev d s)
      ∧ SameButSender (completedLine p o ev (s.line n)) ((completeNumber n p o ev d s).line n) := by
  unfold completeNumber completionRecords completedLine
  extract_lets l set' ks set s1 s2 s3 ks' set2 l1
  have hss : set' = set := rfl
  have hss2 : set2 = set := rfl
  have hl1 : l1 = ({ l with store := offer ks l.store } : Line).enterThrough := rfl
  clear_value set' set2 l1
  subst hss hss2 hl1
  have h1 : LineRecords n [lineRecord n d (.number o l.digits.length (ev.selected.map (·.1)) l.cls set)] s s1 :=
    (offerTo_records n ks s).trans (handOver_records n _ _)
  have h3 := (h1.trans (setLine_records n s1 _ : LineRecords n [] s1 s2)).trans (setLine_records n s2 _ : LineRecords n [] s2 s3)
  have hl3 : s3.line n = ({ l with store := offer ks l.store } : Line).enterThrough.applySet false set := by
    simp [s3, s2, s1, offerTo, l]
  cases ht : l.traps set
  · simp only [Bool.false_eq_true, if_false]
    refine ⟨?_, ?_⟩
    · simpa using h3.trans ((joinTest_event n s3).records n)
    · refine SameButSender.trans ?_ ((joinTest_event n s3).2.1 n)
      have ht' : (({ l with store := offer ks l.store } : Line).enterThrough).traps set = false := ht
      rw [hl3]
      simp only [Line.applySet, ht', Bool.false_eq_true, if_false, SameButSender]
  · simp only [if_true]
    obtain ⟨hr, hs, -⟩ := suspendLine_spec n set .through .collecting d s3
    refine ⟨?_, ?_⟩
    · have := (h3.trans hr).trans ((joinTest_event n _).records n)
      rw [hl3, applySet_trapped] at this
      exact this
    · refine SameButSender.trans ?_ ((joinTest_event n _).2.1 n)
      have ht' : (({ l with store := offer ks l.store } : Line).enterThrough).traps set = true := ht
      rw [hs, hl3]
      simp only [Line.applySet, ht', Bool.false_eq_true, if_false, if_true, SameButSender]

/-! ### Release (R22 to R24, R35) -/

/-- The records of a release: RELEASE, the SEND_DONE of a cut, the PROFILE of a pending adoption. -/
def releaseRecords (n : LineNo) (d : DevTime) (s : State) : List Record :=
  lineRecord n d (.release (s.line n).store.length) :: (cutRecords n d s ++ adoptRecords n d s)

/-- The line record after a pending adoption, if there is one (R35). -/
def afterAdoption (l : Line) : Line :=
  match l.pendingProfile with
  | some p => l.adopt p
  | none => l

theorem afterAdoption_sameButSender {l l' : Line} (h : SameButSender l l') :
    SameButSender (afterAdoption l) (afterAdoption l') := by
  rw [h]
  unfold afterAdoption
  cases hp : l.pendingProfile
  · simp [SameButSender, hp]
  · simp only [SameButSender, Line.adopt, Line.restart]
    split <;> rfl

theorem releaseLine_spec (n : LineNo) (d : DevTime) (s : State) :
    LineRecords n (releaseRecords n d s) s (releaseLine n d s)
      ∧ SameButSender (afterAdoption ((s.line n).releaseTo .onHook)) ((releaseLine n d s).line n) := by
  have h1 := handOver_records n (lineRecord n d (.release (s.line n).store.length)) s
  obtain ⟨h2, hl2⟩ := releaseEffects_spec n .onHook d (handOver (lineRecord n d (.release (s.line n).store.length)) s)
  obtain ⟨h3, hl3, -⟩ := adoptPending_spec n d
    (releaseEffects n .onHook d (handOver (lineRecord n d (.release (s.line n).store.length)) s))
  have hp : ((releaseEffects n .onHook d (handOver (lineRecord n d (.release (s.line n).store.length)) s)).line n).pendingProfile
      = (s.line n).pendingProfile := by rw [hl2]; simp [Line.releaseTo, Line.dropTrain]
  have he : ((releaseEffects n .onHook d (handOver (lineRecord n d (.release (s.line n).store.length)) s)).line n).profileEdition
      = (s.line n).profileEdition := by rw [hl2]; simp [Line.releaseTo, Line.dropTrain]
  refine ⟨?_, ?_⟩
  · have h := (h1.trans h2).trans h3
    have hc : cutRecords n d (handOver (lineRecord n d (.release (s.line n).store.length)) s) = cutRecords n d s := by
      simp [cutRecords, sendDone]
    have ha : adoptRecords n d (releaseEffects n .onHook d
        (handOver (lineRecord n d (.release (s.line n).store.length)) s)) = adoptRecords n d s := by
      simp only [adoptRecords, hp, he]
    rw [hc, ha] at h
    simpa [releaseRecords, releaseLine] using h
  · have : (releaseLine n d s).line n = afterAdoption ((releaseEffects n .onHook d
        (handOver (lineRecord n d (.release (s.line n).store.length)) s)).line n) := hl3
    rw [this]
    exact afterAdoption_sameButSender (by simpa using hl2)

end Sys2Proof.Machine
end

