-- ==== Sys2Proof/Laws/Clock.lean ====
section
/-! SUPPORT. Tick boundaries, frames and changes of clock state: what each does, said once. -/

namespace Sys2Proof.Machine

/-! ### Device time (R211, R212) -/

/-- Device time as it is read, from the four fields it depends on. -/
theorem now_eq (c : Clock) : c.now =
    if c.rolloverDue then (match c.pendingTime with
      | some p => ⟨p.seconds, 0⟩
      | none => ⟨c.seconds + 1, 0⟩) else ⟨c.seconds, c.tick⟩ := by
  cases h : c.rolloverDue <;> cases hp : c.pendingTime <;> simp [Clock.now, Clock.settle, Clock.roll, h, hp]

theorem now_congr {c c' : Clock} (h1 : c'.rolloverDue = c.rolloverDue) (h2 : c'.pendingTime = c.pendingTime)
    (h3 : c'.seconds = c.seconds) (h4 : c'.tick = c.tick) : c'.now = c.now := by
  rw [now_eq, now_eq, h1, h2, h3, h4]

@[simp] theorem windowBoundary_now (c : Clock) : c.windowBoundary.now = c.now := by
  refine now_congr ?_ ?_ ?_ ?_ <;> unfold Clock.windowBoundary <;> split <;> (try split) <;> rfl

theorem roll_rolloverDue (c : Clock) : c.roll.rolloverDue = false := by
  unfold Clock.roll; cases c.pendingTime <;> rfl

theorem settle_rolloverDue (c : Clock) : c.settle.rolloverDue = false := by
  unfold Clock.settle
  cases h : c.rolloverDue
  · simp [h]
  · simpa using roll_rolloverDue c

theorem now_of_not_due {c : Clock} (h : c.rolloverDue = false) : c.now = ⟨c.seconds, c.tick⟩ := by
  simp [now_eq, h]

/-- Taking a rollover that is due leaves device time as the other blocks read it. -/
theorem roll_now (c : Clock) (h : c.rolloverDue = true) : c.roll.now = c.now := by
  rw [now_of_not_due (roll_rolloverDue c)]
  simp [Clock.now, Clock.settle, h]

theorem settle_now (c : Clock) : c.settle.now = c.now := by
  rw [now_of_not_due (settle_rolloverDue c)]; rfl

theorem settle_pendingTime (c : Clock) : c.settle.pendingTime = if c.rolloverDue then none else c.pendingTime := by
  cases h : c.rolloverDue <;> cases hp : c.pendingTime <;> simp [Clock.settle, Clock.roll, h, hp]

/-- A tick boundary takes device time on by one tick. -/
theorem advanceTick_now (c : Clock) : c.advanceTick.now = c.now.next c.settle.pendingTime := by
  have hd := settle_rolloverDue c
  unfold Clock.advanceTick DevTime.next
  rw [show c.now = ⟨c.settle.seconds, c.settle.tick⟩ from rfl, now_eq]
  by_cases ht : c.settle.tick < 1999
  · simp [ht, Config.lastTick, hd]
  · simp only [show ¬ c.settle.tick < Config.lastTick from ht, if_false, if_true]
      <;> (cases c.settle.pendingTime <;> rfl)

/-! ### The advance of device time and the divider window keep the rest of the clock -/

@[simp] theorem roll_frame (c : Clock) : c.roll.frame = c.frame := by
  unfold Clock.roll; cases c.pendingTime <;> rfl
@[simp] theorem settle_frame (c : Clock) : c.settle.frame = c.frame := by
  unfold Clock.settle; split <;> simp
@[simp] theorem advanceTick_frame (c : Clock) : c.advanceTick.frame = c.frame := by
  simp only [Clock.advanceTick]; split <;> simp
@[simp] theorem windowBoundary_frame (c : Clock) : c.windowBoundary.frame = c.frame := by
  unfold Clock.windowBoundary; split <;> (try split) <;> rfl
@[simp] theorem roll_frameAge (c : Clock) : c.roll.frameAge = c.frameAge := by
  unfold Clock.roll; cases c.pendingTime <;> rfl
@[simp] theorem settle_frameAge (c : Clock) : c.settle.frameAge = c.frameAge := by
  unfold Clock.settle; split <;> simp
@[simp] theorem advanceTick_frameAge (c : Clock) : c.advanceTick.frameAge = c.frameAge := by
  simp only [Clock.advanceTick]; split <;> simp
@[simp] theorem windowBoundary_frameAge (c : Clock) : c.windowBoundary.frameAge = c.frameAge := by
  unfold Clock.windowBoundary; split <;> (try split) <;> rfl
@[simp] theorem roll_state (c : Clock) : c.roll.state = c.state := by
  unfold Clock.roll; cases c.pendingTime <;> rfl
@[simp] theorem settle_state (c : Clock) : c.settle.state = c.state := by
  unfold Clock.settle; split <;> simp
@[simp] theorem advanceTick_state (c : Clock) : c.advanceTick.state = c.state := by
  simp only [Clock.advanceTick]; split <;> simp
@[simp] theorem windowBoundary_state (c : Clock) : c.windowBoundary.state = c.state := by
  unfold Clock.windowBoundary; split <;> (try split) <;> rfl
@[simp] theorem roll_spacing (c : Clock) : c.roll.spacing = c.spacing := by
  unfold Clock.roll; cases c.pendingTime <;> rfl
@[simp] theorem settle_spacing (c : Clock) : c.settle.spacing = c.spacing := by
  unfold Clock.settle; split <;> simp
@[simp] theorem advanceTick_spacing (c : Clock) : c.advanceTick.spacing = c.spacing := by
  simp only [Clock.advanceTick]; split <;> simp
@[simp] theorem windowBoundary_spacing (c : Clock) : c.windowBoundary.spacing = c.spacing := by
  unfold Clock.windowBoundary; split <;> (try split) <;> rfl
@[simp] theorem roll_divider (c : Clock) : c.roll.divider = c.divider := by
  unfold Clock.roll; cases c.pendingTime <;> rfl
@[simp] theorem settle_divider (c : Clock) : c.settle.divider = c.divider := by
  unfold Clock.settle; split <;> simp
@[simp] theorem advanceTick_divider (c : Clock) : c.advanceTick.divider = c.divider := by
  simp only [Clock.advanceTick]; split <;> simp
@[simp] theorem windowBoundary_divider (c : Clock) : c.windowBoundary.divider = c.divider := by
  unfold Clock.windowBoundary; split <;> (try split) <;> rfl
@[simp] theorem roll_missing (c : Clock) : c.roll.missing = c.missing := by
  unfold Clock.roll; cases c.pendingTime <;> rfl
@[simp] theorem settle_missing (c : Clock) : c.settle.missing = c.missing := by
  unfold Clock.settle; split <;> simp
@[simp] theorem advanceTick_missing (c : Clock) : c.advanceTick.missing = c.missing := by
  simp only [Clock.advanceTick]; split <;> simp
@[simp] theorem windowBoundary_missing (c : Clock) : c.windowBoundary.missing = c.missing := by
  unfold Clock.windowBoundary; split <;> (try split) <;> rfl
@[simp] theorem roll_qualCount (c : Clock) : c.roll.qualCount = c.qualCount := by
  unfold Clock.roll; cases c.pendingTime <;> rfl
@[simp] theorem settle_qualCount (c : Clock) : c.settle.qualCount = c.qualCount := by
  unfold Clock.settle; split <;> simp
@[simp] theorem advanceTick_qualCount (c : Clock) : c.advanceTick.qualCount = c.qualCount := by
  simp only [Clock.advanceTick]; split <;> simp
@[simp] theorem windowBoundary_qualCount (c : Clock) : c.windowBoundary.qualCount = c.qualCount := by
  unfold Clock.windowBoundary; split <;> (try split) <;> rfl
@[simp] theorem roll_lockDue (c : Clock) : c.roll.lockDue = c.lockDue := by
  unfold Clock.roll; cases c.pendingTime <;> rfl
@[simp] theorem settle_lockDue (c : Clock) : c.settle.lockDue = c.lockDue := by
  unfold Clock.settle; split <;> simp
@[simp] theorem advanceTick_lockDue (c : Clock) : c.advanceTick.lockDue = c.lockDue := by
  simp only [Clock.advanceTick]; split <;> simp
@[simp] theorem windowBoundary_lockDue (c : Clock) : c.windowBoundary.lockDue = c.lockDue := by
  unfold Clock.windowBoundary; split <;> (try split) <;> rfl
@[simp] theorem roll_lockedSince (c : Clock) : c.roll.lockedSince = c.lockedSince := by
  unfold Clock.roll; cases c.pendingTime <;> rfl
@[simp] theorem settle_lockedSince (c : Clock) : c.settle.lockedSince = c.lockedSince := by
  unfold Clock.settle; split <;> simp
@[simp] theorem advanceTick_lockedSince (c : Clock) : c.advanceTick.lockedSince = c.lockedSince := by
  simp only [Clock.advanceTick]; split <;> simp
@[simp] theorem windowBoundary_lockedSince (c : Clock) : c.windowBoundary.lockedSince = c.lockedSince := by
  unfold Clock.windowBoundary; split <;> (try split) <;> rfl
@[simp] theorem roll_losses (c : Clock) : c.roll.losses = c.losses := by
  unfold Clock.roll; cases c.pendingTime <;> rfl
@[simp] theorem settle_losses (c : Clock) : c.settle.losses = c.losses := by
  unfold Clock.settle; split <;> simp
@[simp] theorem advanceTick_losses (c : Clock) : c.advanceTick.losses = c.losses := by
  simp only [Clock.advanceTick]; split <;> simp
@[simp] theorem windowBoundary_losses (c : Clock) : c.windowBoundary.losses = c.losses := by
  unfold Clock.windowBoundary; split <;> (try split) <;> rfl

/-! ### The tick boundary -/

@[simp] theorem contains_iff_mem (q : List PortRequest) (r : PortRequest) : q.contains r = decide (r ∈ q) := by
  by_cases h : r ∈ q <;> simp [h]

/-- A tick boundary does what TickTaken says, and nothing else but to count the divider window. -/
theorem tickBoundary_spec (s : State) :
    TickTaken s (tickBoundary s) ∧ (tickBoundary s).pending = s.pending ∧ (tickBoundary s).part = s.part
      ∧ (tickBoundary s).regs = s.regs ∧ (tickBoundary s).plan = s.plan ∧ (tickBoundary s).hwy = s.hwy
      ∧ (tickBoundary s).mem = s.mem ∧ (tickBoundary s).clk = s.clk.advanceTick.windowBoundary := by
  refine ⟨⟨?_, ?_, ?_, ?_, ?_, ?_, ?_, ?_⟩, ?_, ?_, ?_, ?_, ?_, ?_, ?_⟩
  · simp [tickBoundary, State.now, advanceTick_now]
  · cases h : s.scan.shifting <;> simp [tickBoundary, ScanPort.strobe, h, State.now]
  · intro n; simp [tickBoundary, State.line, State.mapLines, State.mapSenders, Line.timerTick]
  · intro k; simp [tickBoundary, State.sender, State.mapLines, State.mapSenders, Sender.atBoundary, Config.maxTime]; congr
  all_goals (try (simp [tickBoundary]; done))
  · simp only [tickBoundary, requestVisit]
    by_cases h1 : s.arc.port = .running <;> by_cases h2 : PortRequest.visit ∈ s.arc.queue
      <;> cases h3 : s.arc.visiting <;> simp [h1, h2, enqueue, AreaController.visiting] <;>
      simp [AreaController.visiting] at h3 <;> simp [h3]

/-! ### Frames -/

/-- The highway at a frame start: the frame opened, and nothing driven yet. -/
theorem startFrame_hwy (s : State) :
    (startFrame s).hwy = { s.hwy.openFrame with xtxd := Vector.replicate 96 none } := by
  unfold startFrame
  by_cases h : (s.clk.frame + 1) % 4 = 0
  · simp only [h, if_true]
    exact (tickBoundary_spec _).2.2.2.2.2.1
  · simp only [h, if_false]
    rfl

/-- What every frame start does: the next frame number, no slot taken, nothing driven yet, and the delayed sample of each
channel, the oldest of its delay line. -/
theorem startFrame_frame (s : State) :
    (startFrame s).clk.frame = (s.clk.frame + 1) % 4 ∧ (startFrame s).clk.frameAge = 0 ∧ (startFrame s).hwy.slot = 0
      ∧ (startFrame s).hwy.delay = s.hwy.delay ∧ (startFrame s).hwy.xtxd = Vector.replicate 96 none
      ∧ ∀ n : LineNo, (startFrame s).hwy.delayed[n] = s.hwy.delay[n].headD 0 := by
  have hh := startFrame_hwy s
  have hc : (startFrame s).clk.frame = (s.clk.frame + 1) % 4 ∧ (startFrame s).clk.frameAge = 0 := by
    unfold startFrame
    by_cases h : (s.clk.frame + 1) % 4 = 0
    · simp only [h, if_true]
      rw [(tickBoundary_spec _).2.2.2.2.2.2.2]
      simp
    · simp [h]
  refine ⟨hc.1, hc.2, by rw [hh]; rfl, by rw [hh]; rfl, by rw [hh], fun n => ?_⟩
  have hd : (startFrame s).hwy.delayed = s.hwy.openFrame.delayed := by rw [hh]
  simp only [hd, openFrame_delayed]

/-- A frame that is no tick boundary leaves what a tick paces. -/
theorem startFrame_inside (s : State) (h : (s.clk.frame + 1) % 4 ≠ 0) :
    TickBlocksSame s (startFrame s) ∧ (startFrame s).plan = s.plan ∧ (startFrame s).regs = s.regs
      ∧ (startFrame s).part = s.part ∧ (startFrame s).mem = s.mem ∧ (startFrame s).pending = s.pending := by
  simp [startFrame, h, TickBlocksSame, releaseXtxd]

/-- Frame 0 is a tick boundary. -/
theorem startFrame_boundary (s : State) (h : (s.clk.frame + 1) % 4 = 0) :
    TickTaken s (startFrame s) ∧ (startFrame s).plan = s.plan ∧ (startFrame s).regs = s.regs
      ∧ (startFrame s).part = s.part ∧ (startFrame s).mem = s.mem ∧ (startFrame s).pending = s.pending := by
  obtain ⟨ht, hp, hpa, hr, hpl, -, hm, -⟩ := tickBoundary_spec (releaseXtxd { s with
    clk := { s.clk with frame := (s.clk.frame + 1) % 4, frameAge := 0 }, hwy := s.hwy.openFrame })
  simp only [startFrame, h, if_true] at *
  refine ⟨?_, hpl, hr, hpa, hm, hp⟩
  obtain ⟨h1, h2, h3, h4, h5, h6, h7, h8⟩ := ht
  refine ⟨h1.trans ?_, h2, h3, h4, h5, h6, h7, h8⟩
  rw [settle_pendingTime, settle_pendingTime]
  exact congrArg _ (now_congr rfl rfl rfl rfl)

/-- The accumulators advance in a burst that sounds, and in no other sender (R152). -/
theorem advanceSounding_spec (s : State) (x : Sender) :
    (∀ key, Sounds s x → x.key = some key → advanceSounding s x = { x with
        accLow := x.accLow + lowIncrement key, accHigh := x.accHigh + highIncrement key })
      ∧ (¬ Sounds s x ∨ x.key = none → advanceSounding s x = x) := by
  unfold advanceSounding Sounds
  cases hl : x.line with
  | none => simp
  | some n =>
    cases hp : (s.line n).adopted with
    | none => simp [hp]
    | some p =>
      cases hk : x.key <;> simp [sounding, Sender.advance, hp, hk, and_assoc]
      grind

/-- Composing a frame drives it, as DrivenSame says, and touches no other block. -/
theorem composeFrame_spec (s : State) :
    DrivenSame s (composeFrame s) ∧ (composeFrame s).pending = s.pending ∧ (composeFrame s).part = s.part
      ∧ (composeFrame s).regs = s.regs ∧ (composeFrame s).plan = s.plan ∧ (composeFrame s).clk = s.clk
      ∧ (composeFrame s).mem = s.mem ∧ (composeFrame s).hwy = { s.hwy with xtxd := (composeFrame s).hwy.xtxd } := by
  have hk : ∀ k, (composeFrame s).sender k = advanceSounding s (s.sender k) := fun k => by
    simp [composeFrame, State.sender, State.mapSenders]
  refine ⟨⟨rfl, rfl, rfl, rfl, rfl, rfl, rfl, fun n => by simp [composeFrame, allLines], fun k => ?_⟩, rfl, rfl, rfl, rfl, rfl,
    rfl, rfl⟩
  rw [hk]
  exact advanceSounding_spec s (s.sender k)

/-- The next frame of a locked clock counts the cycles of the one that ends in the divider window (R210). -/
theorem nextLockedFrame_window (missing : Nat) (s : State) :
    WindowCounted s.clk.frameAge s (nextLockedFrame missing s) := by
  have hs : ∀ c : Clock, c.settle.window = c.window ∧ c.settle.windowDone = c.windowDone := fun c => by
    unfold Clock.settle Clock.roll; split <;> (try split) <;> exact ⟨rfl, rfl⟩
  have ha : ∀ c : Clock, c.advanceTick.window = c.window ∧ c.advanceTick.windowDone = c.windowDone := fun c => by
    simp only [Clock.advanceTick]; split <;> exact hs c
  by_cases hf : (s.clk.frame + 1) % 4 = 0
  · cases hw : s.clk.window with
    | none => simp [WindowCounted, nextLockedFrame, startFrame, hf, hw, tickBoundary, Clock.windowBoundary, ha]
    | some w =>
      by_cases ht : w.ticks < 255
      · simp [WindowCounted, nextLockedFrame, startFrame, hf, hw, tickBoundary, Clock.windowBoundary, ha, ht,
          Config.windowTicks, show ¬ 256 ≤ w.ticks + 1 by omega]
      · simp [WindowCounted, nextLockedFrame, startFrame, hf, hw, tickBoundary, Clock.windowBoundary, ha,
          Config.windowTicks, show 256 ≤ w.ticks + 1 by omega, show 255 ≤ w.ticks by omega]
  · simp [WindowCounted, nextLockedFrame, startFrame, hf]

/-! ### Changes of clock state (R209) -/

/-- A change of clock state: the state, one CLOCK record, the CLOCK attention bit, and the senders. -/
theorem changeClock_spec (st : ClockState) (s : State) :
    (changeClock st s).clk = { s.clk with state := st }
      ∧ Recorded [partRecord s.now (.clock st)] s (changeClock st s)
      ∧ (changeClock st s).regs = { s.regs with attention := s.regs.attention ||| Attention.clock }
      ∧ (changeClock st s).lines = s.lines ∧ (changeClock st s).scan = s.scan ∧ (changeClock st s).plan = s.plan
      ∧ (changeClock st s).hwy = s.hwy ∧ (changeClock st s).mem = s.mem ∧ (changeClock st s).part = s.part
      ∧ (changeClock st s).pending = s.pending ∧ (changeClock st s).pool.waitList = s.pool.waitList
      ∧ (changeClock st s).pool.joins = s.pool.joins
      ∧ ∀ k, (changeClock st s).sender k =
          if st = .locked then regapSender (s.sender k)
          else if s.clk.state = .locked then pauseSender (s.sender k) else s.sender k := by
  have hr : Recorded [partRecord s.now (.clock st)] s
      (handOver (partRecord s.now (.clock st)) { s with clk := { s.clk with state := st } }) :=
    (handOver_recorded _ { s with clk := { s.clk with state := st } }).congr ⟨rfl, rfl⟩ ⟨rfl, rfl⟩
  unfold changeClock
  by_cases h1 : st = .locked
  · exact ⟨by simp [h1], hr.congr ⟨rfl, rfl⟩ (by simp [h1]), by simp [h1, setAttention, State.sender, State.mapSenders]⟩
  · by_cases h2 : s.clk.state = .locked
    · exact ⟨by simp [h1, h2], hr.congr ⟨rfl, rfl⟩ (by simp [h1, h2]),
        by simp [h1, h2, setAttention, State.sender, State.mapSenders]⟩
    · exact ⟨by simp [h1, h2], hr.congr ⟨rfl, rfl⟩ (by simp [h1, h2]), by simp [h1, h2, setAttention, State.sender]⟩

end Sys2Proof.Machine
end

