-- ==== Sys2Proof/Laws/Gaps.lean ====
section
/-! SUPPORT. Slots composed again at a sender's boundary steps (R148), the expiries that are taken before a loss of the
reference (R140), and lines that come back from BLOCKED (R12, R31). -/

namespace Sys2Proof.Machine

/-! ### Slots composed again in frame 0 of a tick (R148, R150) -/

/-- Composing slots again changes what XTXD carries in the slots moved, in frame 0 of a tick under a locked clock, and
nothing else. -/
theorem recompose_spec (moved : LineNo → Bool) (s : State) :
    recompose moved s = { s with hwy := { s.hwy with xtxd := (recompose moved s).hwy.xtxd } }
      ∧ ∀ n : LineNo, (recompose moved s).hwy.xtxd[n]
          = if boundaryFrame s = true ∧ moved n = true then some (slotSample s.hwy.delayed[n] s n) else s.hwy.xtxd[n] := by
  unfold recompose
  by_cases h : boundaryFrame s = true
  · exact ⟨by simp [h], fun n => by simp [h, allLines]⟩
  · exact ⟨by simp [h], fun n => by simp [h]⟩

/-! ### Expiries of senders, and those before a loss of the reference (R134, R135, R140) -/

/-- In a frame that is not driven, no slot is composed again. -/
theorem recompose_undriven (moved : LineNo → Bool) {s : State} (h : s.hwy.driven = false) : recompose moved s = s := by
  simp [recompose, boundaryFrame, h]

/-- In a frame that is not driven, the start of a burst touches its sender alone. -/
theorem beginBurst_undriven (k : SenderNo) (n : LineNo) {s : State} (h : s.hwy.driven = false) :
    beginBurst k n s = s.setSender k ((s.sender k).startBurst ((s.line n).store.head?.map (·.key))) := by
  simp [beginBurst, boundaryFrame, h]

/-- In a frame that is not driven, a gap expiry reaches the line records, the pool and the journal alone. -/
theorem expireGap_undriven (k : SenderNo) (n : LineNo) {s : State} (h : s.hwy.driven = false) :
    OtherBlocksSame s (expireGap k n s) := by
  unfold expireGap
  simp only
  split
  · rw [beginBurst_undriven _ _ (by simpa using h)]
    simp [OtherBlocksSame]
  · split
    · have hf := freeSender_spec k n (emptyReason (s.sender k).flushMark) s.now
        ((s.setSender k { s.sender k with keysSent := bump (s.sender k).keysSent }).setLine n
          { s.line n with store := (s.line n).store.drop 1 })
      have ho := (show OtherBlocksSame s _ from hf.1).trans (arbitrate_event true _).1
      rw [recompose_undriven]
      · exact ho
      · rw [ho.2.2.2.2.2.1]
        exact h
    · rw [beginBurst_undriven _ _ (by simpa using h)]
      simp [OtherBlocksSame]

theorem takeBurstExpiry_undriven (k : SenderNo) {s : State} (h : s.hwy.driven = false) :
    OtherBlocksSame s (takeBurstExpiry k s) := by
  unfold takeBurstExpiry
  split
  · split
    · rw [recompose_undriven _ (by simpa using h)]
      simp [OtherBlocksSame]
    · exact .refl s
  · exact .refl s

theorem takeGapExpiry_undriven (k : SenderNo) {s : State} (h : s.hwy.driven = false) :
    OtherBlocksSame s (takeGapExpiry k s) := by
  unfold takeGapExpiry
  split
  · split
    · exact expireGap_undriven k _ h
    · exact .refl s
  · exact .refl s

theorem takeExpiries_undriven (k : SenderNo) {s : State} (h : s.hwy.driven = false) :
    OtherBlocksSame s (takeExpiries k s) := by
  have hb := takeBurstExpiry_undriven k h
  exact hb.trans (takeGapExpiry_undriven k (by rw [hb.2.2.2.2.2.1]; exact h))

/-- The expiries before a loss reach the line records, the pool, and the journal with its requests, alone. -/
theorem takeAllExpiries_undriven (ks : List SenderNo) {s : State} (h : s.hwy.driven = false) :
    OtherBlocksSame s (takeAllExpiries ks s) := by
  induction ks generalizing s with
  | nil => exact .refl s
  | cons k rest ih =>
    have hk := takeExpiries_undriven k h
    exact hk.trans (ih (by rw [hk.2.2.2.2.2.1]; exact h))

/-- The expiries before a loss are BURST_EXPIRY and GAP_EXPIRY of each sender, one after another. -/
theorem takeAllExpiries_taken (ks : List SenderNo) (s : State) :
    Taken (ks.flatMap fun k => [.burstExpiry k, .gapExpiry k]) s (takeAllExpiries ks s) := by
  induction ks generalizing s with
  | nil => rfl
  | cons k rest ih => exact ⟨_, rfl, _, rfl, ih _⟩

/-! ### Lines back from BLOCKED -/

@[simp] theorem unblocked_eq (skip : Nat) (l : Line) :
    l.unblocked skip = { restartedLine l with main := .onHook, skipSamples := skip } := rfl

/-- A return from BLOCKED: the line, and one UNBLOCK record. -/
theorem leaveBlocked_spec (n : LineNo) (reason : BlockReason) (d : DevTime) (s : State) :
    (leaveBlocked n reason d s).line n = { restartedLine (s.line n) with
        main := .onHook, skipSamples := if reason = .admin then s.scan.samplesDue else 0 }
      ∧ OtherLinesSame n s (leaveBlocked n reason d s) ∧ OtherBlocksSame s (leaveBlocked n reason d s)
      ∧ (leaveBlocked n reason d s).pool = s.pool
      ∧ Recorded [⟨some n, d, .unblock reason⟩] s (leaveBlocked n reason d s) := by
  unfold leaveBlocked
  have hr := handOver_recorded (lineRecord n d (.unblock reason)) (s.setLine n ((s.line n).unblocked
    (match reason with
      | .admin => s.scan.samplesDue
      | .fault => 0)))
  refine ⟨?_, fun m h => by simp [h], by simp [OtherBlocksSame], by simp, hr.congr ⟨rfl, rfl⟩ ⟨rfl, rfl⟩⟩
  cases reason <;> simp

end Sys2Proof.Machine
end

