-- ==== Sys2Proof/Laws/Memory.lean ====
section
/-! SUPPORT. Memory: the canonical form is kept by every write, a read after a write gives the value written, and every
other byte reads as before. -/

namespace Sys2Proof.Machine

theorem Memory.mem_writeByte {x : Host.Cell} {a : Nat} {b : Byte} (m : Memory) (h : x ∈ m.writeByte a b) :
    x = (a, b) ∨ x ∈ m := by
  induction m with
  | nil => simpa [Memory.writeByte] using h
  | cons y rest ih =>
    simp only [Memory.writeByte] at h
    split at h
    · simpa using h
    · split at h
      · rcases List.mem_cons.1 h with h | h
        · exact .inl h
        · exact .inr (List.mem_cons_of_mem _ h)
      · rcases List.mem_cons.1 h with h | h
        · exact .inr (h ▸ List.mem_cons_self)
        · exact (ih h).imp_right (List.mem_cons_of_mem _)

/-- Storing a byte keeps the canonical form. -/
theorem Memory.wf_writeByte (a : Nat) (b : Byte) (m : Memory) (h : m.wf) : (m.writeByte a b).wf := by
  induction m with
  | nil => simp [Memory.writeByte]
  | cons y rest ih =>
    obtain ⟨hy, hr⟩ := List.pairwise_cons.1 h
    simp only [Memory.writeByte]
    split
    · rename_i ha
      refine List.pairwise_cons.2 ⟨fun z hz => ?_, h⟩
      rcases List.mem_cons.1 hz with rfl | hz
      · exact ha
      · exact Nat.lt_trans ha (hy z hz)
    · split
      · rename_i ha
        exact List.pairwise_cons.2 ⟨fun z hz => ha ▸ hy z hz, hr⟩
      · refine List.pairwise_cons.2 ⟨fun z hz => ?_, ih hr⟩
        rcases Memory.mem_writeByte rest hz with rfl | hz
        · simp only; omega
        · exact hy z hz

/-- The byte just stored is read back. -/
@[simp] theorem Memory.readByte_writeByte_self (a : Nat) (b : Byte) (m : Memory) :
    (m.writeByte a b).readByte a = some b := by
  induction m with
  | nil => simp [Memory.writeByte, Memory.readByte]
  | cons y rest ih =>
    simp only [Memory.writeByte]
    split
    · simp [Memory.readByte]
    · split
      · simp [Memory.readByte]
      · rename_i h1 h2
        simp [Memory.readByte, h2, ih]

/-- Every other byte reads as before. -/
theorem Memory.readByte_writeByte_of_ne {a c : Nat} (b : Byte) (m : Memory) (h : c ≠ a) :
    (m.writeByte a b).readByte c = m.readByte c := by
  induction m with
  | nil => simp [Memory.writeByte, Memory.readByte, h]
  | cons y rest ih =>
    simp only [Memory.writeByte]
    split
    · simp [Memory.readByte, h]
    · split
      · rename_i h2
        have : c ≠ y.1 := h2 ▸ h
        simp [Memory.readByte, h, this]
      · simp only [Memory.readByte, ih]

/-- Storing a word keeps the canonical form. -/
theorem Memory.wf_writeWord (a w : Word) (m : Memory) (h : m.wf) : (m.writeWord a w).wf :=
  Memory.wf_writeByte _ _ _ (Memory.wf_writeByte _ _ _ (Memory.wf_writeByte _ _ _ (Memory.wf_writeByte _ _ _ h)))

/-- A byte outside the four stored reads as before. -/
theorem Memory.readByte_writeWord_of_ne (a w : Word) (m : Memory) (c : Nat) (h0 : c ≠ a.toNat) (h1 : c ≠ (a + 1).toNat)
    (h2 : c ≠ (a + 2).toNat) (h3 : c ≠ (a + 3).toNat) : (m.writeWord a w).readByte c = m.readByte c := by
  rw [Memory.writeWord, Memory.readByte_writeByte_of_ne _ _ h3, Memory.readByte_writeByte_of_ne _ _ h2,
    Memory.readByte_writeByte_of_ne _ _ h1, Memory.readByte_writeByte_of_ne _ _ h0]

theorem word_add_ne (a : Word) : a.toNat ≠ (a + 1).toNat ∧ a.toNat ≠ (a + 2).toNat ∧ a.toNat ≠ (a + 3).toNat
    ∧ (a + 1).toNat ≠ (a + 2).toNat ∧ (a + 1).toNat ≠ (a + 3).toNat ∧ (a + 2).toNat ≠ (a + 3).toNat := by
  refine ⟨?_, ?_, ?_, ?_, ?_, ?_⟩ <;> bv_omega

/-- Byte i of a word just stored at a reads back at a + i. -/
theorem Memory.readByte_writeWord (a w : Word) (m : Memory) :
    (m.writeWord a w).readByte a.toNat = some (byteOf w 0) ∧ (m.writeWord a w).readByte (a + 1).toNat = some (byteOf w 1)
      ∧ (m.writeWord a w).readByte (a + 2).toNat = some (byteOf w 2)
      ∧ (m.writeWord a w).readByte (a + 3).toNat = some (byteOf w 3) := by
  obtain ⟨h1, h2, h3, h4, h5, h6⟩ := word_add_ne a
  refine ⟨?_, ?_, ?_, ?_⟩
  · rw [Memory.writeWord, Memory.readByte_writeByte_of_ne _ _ h3, Memory.readByte_writeByte_of_ne _ _ h2,
      Memory.readByte_writeByte_of_ne _ _ h1, Memory.readByte_writeByte_self]
  · rw [Memory.writeWord, Memory.readByte_writeByte_of_ne _ _ h5, Memory.readByte_writeByte_of_ne _ _ h4,
      Memory.readByte_writeByte_self]
  · rw [Memory.writeWord, Memory.readByte_writeByte_of_ne _ _ h6, Memory.readByte_writeByte_self]
  · rw [Memory.writeWord, Memory.readByte_writeByte_self]

theorem shiftLeft_or_byte (a b : Nat) (h : b < 256) : a <<< 8 ||| b = a * 256 + b := by
  rw [← Nat.shiftLeft_add_eq_or_of_lt (i := 8) h, Nat.shiftLeft_eq]

/-- The four bytes of a word, put together, are the word. -/
theorem bytes_of_word (w : Word) : byteOf w 3 ++ byteOf w 2 ++ byteOf w 1 ++ byteOf w 0 = w := by
  apply BitVec.eq_of_toNat_eq
  have hw := w.isLt
  rw [BitVec.toNat_append, shiftLeft_or_byte _ _ (byteOf w 0).isLt, BitVec.toNat_append,
    shiftLeft_or_byte _ _ (byteOf w 1).isLt, BitVec.toNat_append, shiftLeft_or_byte _ _ (byteOf w 2).isLt]
  simp only [byteOf, field, BitVec.toNat_ofNat]
  omega

/-- A word just stored is read back. -/
theorem Memory.readWord_writeWord (a w : Word) (m : Memory) : (m.writeWord a w).readWord a = some w := by
  obtain ⟨h0, h1, h2, h3⟩ := Memory.readByte_writeWord a w m
  rw [Memory.readWord, h0, h1, h2, h3]
  exact congrArg some (bytes_of_word w)

/-- Memory after a reset of the model's own is in canonical form. -/
theorem reset_memory_wf : State.reset.mem.wf := List.Pairwise.nil

end Sys2Proof.Machine
end

