-- ==== Sys2Proof/Laws/Pool.lean ====
section
/-! SUPPORT. What the arbiter and the wait list can do, said once: when arbitration leaves the state alone and what its one
grant is (R130, R131), where an entry is put (R126, R129), and when the joining test does nothing (R127). -/

namespace Sys2Proof.Machine

/-! ### The arbiter (R130) -/

theorem freeSender?_none {s : State} (h : ∀ k, (s.sender k).state ≠ .free) : freeSender? s = none := by
  simp [freeSender?, h]

theorem grantMany_same {b : Bool} {s : State} (h : grantOne b s = s) (fuel : Nat) : grantMany b fuel s = s := by
  induction fuel with
  | zero => rfl
  | succ fuel ih => rw [grantMany, h, ih]

/-- With no sender FREE the arbiter grants nothing (R130). -/
theorem arbitrate_none_free (b : Bool) {s : State} (h : ∀ k, (s.sender k).state ≠ .free) : arbitrate b s = s :=
  grantMany_same (by simp [grantOne, freeSender?_none h]) 16

/-- With no line waiting the arbiter grants nothing (R130). -/
theorem arbitrate_none_waiting (b : Bool) {s : State} (h : s.pool.waitList = []) : arbitrate b s = s :=
  grantMany_same (by unfold grantOne; rw [h]; split <;> first | rfl | simp_all) 16

/-- The one FREE sender is the one the arbiter finds. -/
theorem freeSender?_only {s : State} {k : SenderNo} (hk : (s.sender k).state = .free)
    (ho : ∀ j, j ≠ k → (s.sender j).state ≠ .free) : freeSender? s = some k := by
  unfold freeSender?
  cases hf : allSenders.find? fun j => (s.sender j).state == .free with
  | none =>
    have := List.find?_eq_none.1 hf k (by simp [allSenders])
    simp [hk] at this
  | some j =>
    have hj : (s.sender j).state = .free := by simpa using List.find?_some hf
    by_cases h : j = k
    · rw [h]
    · exact absurd hj (ho j h)

/-- A granted sender is not FREE (R131). -/
theorem granted_not_free (b : Bool) (n : LineNo) (c : ClockState) : (grantedSender b n c).state ≠ .free := by
  unfold grantedSender; simp only; split <;> simp

/-- With one sender FREE and lines waiting, arbitration is one grant, to the head line (R130). -/
theorem arbitrate_only (b : Bool) {s : State} {k : SenderNo} {e : WaitEntry} {rest : List WaitEntry}
    (hk : (s.sender k).state = .free) (ho : ∀ j, j ≠ k → (s.sender j).state ≠ .free)
    (hw : s.pool.waitList = e :: rest) : arbitrate b s = attach b k e.line (leaveWait e.line s) := by
  have h1 : grantOne b s = attach b k e.line (leaveWait e.line s) := by
    simp [grantOne, freeSender?_only hk ho, hw]
  have h2 : ∀ j, ((attach b k e.line (leaveWait e.line s)).sender j).state ≠ .free := by
    intro j
    by_cases hj : j = k
    · subst hj; simpa [attach, leaveWait] using granted_not_free b e.line s.clk.state
    · have : (attach b k e.line (leaveWait e.line s)).sender j = s.sender j := by
        simp [attach, leaveWait, State.sender, State.setSender, State.setLine, Fin.val_ne_of_ne (Ne.symm hj)]
      rw [this]; exact ho j hj
  unfold arbitrate
  rw [grantMany, h1]
  exact grantMany_same (by simp [grantOne, freeSender?_none h2]) 15

/-! ### The wait list (R126, R127, R129) -/

/-- An entry is put behind entries it does not stand before, and before the first that it does (R126). -/
theorem insertWait_place (s : State) (e : WaitEntry) (l : List WaitEntry) :
    ∃ before after, insertWait s e l = before ++ e :: after ∧ before ++ after = l
      ∧ (∀ f ∈ before, waitsBefore s e f = false) ∧ ∀ f, after.head? = some f → waitsBefore s e f = true := by
  induction l with
  | nil => exact ⟨[], [], rfl, rfl, by simp, by simp⟩
  | cons f rest ih =>
    by_cases h : waitsBefore s e f = true
    · exact ⟨[], f :: rest, by simp [insertWait, h], rfl, by simp, by simpa using h⟩
    · obtain ⟨before, after, h1, h2, h3, h4⟩ := ih
      exact ⟨f :: before, after, by simp [insertWait, h, h1], by simp [h2], by simpa [h] using h3, h4⟩

/-- A line that waits does not join again (R127). -/
theorem joinTest_waiting {n : LineNo} {s : State} (h : s.waiting n = true) : joinTest n s = s := by
  simp [joinTest, mayJoin, h]

/-- A line that holds a sender does not join (R127). -/
theorem joinTest_attached {n : LineNo} {s : State} {k : SenderNo} (h : (s.line n).attached = some k) : joinTest n s = s := by
  simp [joinTest, mayJoin, h]

/-- A line with an empty store does not join (R127). -/
theorem joinTest_empty {n : LineNo} {s : State} (h : (s.line n).store = []) : joinTest n s = s := by
  simp [joinTest, mayJoin, h]

/-- A line in SUSPENDED does not join (R127). -/
theorem joinTest_suspended {n : LineNo} {s : State} (h : (s.line n).main = .suspended) : joinTest n s = s := by
  simp [joinTest, mayJoin, h]

end Sys2Proof.Machine
end

