-- ==== Sys2Proof/Laws/Port.lean ====
section
/-! SUPPORT. The port's shared operations: faults, ends of sequences, a completed read, a completed write. -/

namespace Sys2Proof.Machine

/-! ### Entry to FAULTED (R161, R194, R216, R218) -/

theorem portFault_spec (code : FaultCode) (s : State) :
    portFault code s = { s with
      regs := { s.regs with faultCode := code, attention := s.regs.attention ||| Attention.fault }
      arc := { s.arc with port := .faulted, haltTaken := false, queue := [], inFlight := none, busWait := 0 }
      jnl := { s.jnl with holdOff := false, holdOffDue := false } } := rfl

/-! ### Ends of sequences (R161, R194, R215) -/

/-- A sequence that ends takes a HALTING port to IDLE; otherwise the Journal Unit may ask for a sequence at once. -/
theorem endSequence_cases (s : State) :
    (s.arc.port = .halting ∧ endSequence s = portIdle s)
      ∨ (s.arc.port ≠ .halting
        ∧ endSequence s = requestJournal { s with arc := { s.arc with inFlight := none, busWait := 0 } }) := by
  unfold endSequence
  by_cases h : s.arc.port = .halting
  · exact .inl ⟨h, by simp [h]⟩
  · exact .inr ⟨h, by simp [h]⟩

/-- Whatever a sequence's end does, nothing is in flight and every block but the Area Controller is as it was. -/
theorem endSequence_spec (s : State) :
    (endSequence s).arc.inFlight = none ∧ (endSequence s).lines = s.lines ∧ (endSequence s).pool = s.pool
      ∧ (endSequence s).jnl = s.jnl ∧ (endSequence s).regs = s.regs ∧ (endSequence s).clk = s.clk
      ∧ (endSequence s).plan = s.plan ∧ (endSequence s).hwy = s.hwy ∧ (endSequence s).scan = s.scan
      ∧ (endSequence s).mem = s.mem ∧ (endSequence s).part = s.part ∧ (endSequence s).pending = s.pending
      ∧ (endSequence s).arc.sweep = s.arc.sweep ∧ (endSequence s).arc.base = s.arc.base := by
  rcases endSequence_cases s with ⟨-, h⟩ | ⟨-, h⟩ <;> rw [h] <;> simp [portIdle]

/-! ### A completed write (R178, R195, R203) -/

/-- A write changes the word at the address the sequence stands at, and no other byte of memory. -/
theorem writeDone_memory (q : Sequence) (s : State) :
    (writeDone q s).mem = s.mem.writeWord (writeAddress s.jnl q q.written)
      ((q.out.getD (composeWords q s)).getD q.written 0) := rfl

theorem writeDone_wf (q : Sequence) (s : State) (h : s.mem.wf) : (writeDone q s).mem.wf :=
  Memory.wf_writeWord _ _ _ h

/-- A read changes nothing outside the Area Controller. -/
theorem readDone_spec (data : Word) (q : Sequence) (s : State) :
    (readDone data q s).mem = s.mem ∧ (readDone data q s).lines = s.lines ∧ (readDone data q s).pool = s.pool
      ∧ (readDone data q s).jnl = s.jnl ∧ (readDone data q s).regs = s.regs ∧ (readDone data q s).clk = s.clk
      ∧ (readDone data q s).plan = s.plan ∧ (readDone data q s).hwy = s.hwy ∧ (readDone data q s).scan = s.scan
      ∧ (readDone data q s).part = s.part ∧ (readDone data q s).pending = s.pending := by
  simp only [readDone]
  split
  · simp
  · split <;> simp

/-! ### Staging and commits keep the bounds of R192 and R193 -/

/-- The bounds of staging and of the gap count. -/
def StagingBounds (j : JournalUnit) : Prop :=
  j.staging.length ≤ 32 ∧ j.gap ≤ 65535 ∧ (j.gap ≠ 0 → j.staging.length = 32)

theorem StagingBounds.stage {j : JournalUnit} (h : StagingBounds j) (r : Record) : StagingBounds (j.stage r) := by
  obtain ⟨h1, h2, h3⟩ := h
  unfold JournalUnit.stage
  split
  · rename_i hl
    refine ⟨by simpa using hl, h2, fun hg => ?_⟩
    have := h3 hg
    simp [Config.stagingRoom] at hl
    omega
  · rename_i hl
    simp [Config.stagingRoom] at hl
    exact ⟨h1, by simp [bump], fun _ => by show j.staging.length = 32; omega⟩

theorem StagingBounds.unstage {j : JournalUnit} (h : StagingBounds j) (count : Nat) (d : DevTime) :
    StagingBounds (j.unstage count d) := by
  obtain ⟨h1, h2, h3⟩ := h
  unfold JournalUnit.unstage
  split
  · refine ⟨?_, by simp, by simp⟩
    simp
    omega
  · rename_i hc
    refine ⟨by simp; omega, h2, fun hg => ?_⟩
    have hg' : j.gap ≠ 0 := hg
    have := h3 hg'
    have hz : count = 0 := by
      rcases Nat.eq_zero_or_pos count with h | h
      · exact h
      · exact absurd ⟨h, by simp [Config.stagingRoom]; omega, by omega⟩ hc
    subst hz
    simpa using this

end Sys2Proof.Machine
end

