-- ==== Sys2Proof/Laws/Sine.lean ====
section
/-! SUPPORT. The sine table holds what R153's formula gives: every entry is 32767 × sin(2πi / 256) to the nearest whole number.
The sines and cosines of the multiples of π / 128 are enclosed by the addition formulas, in integer steps of 10⁻¹². -/

namespace Sys2Proof.Machine

open Real

/-- A sine near 0, to within its fifth power over 100. -/
theorem sin_near {x lo hi : ℝ} (h0 : 0 ≤ lo) (hl : lo ≤ x) (hh : x ≤ hi) (h1 : hi ≤ 1) :
    lo - hi ^ 3 / 6 - hi ^ 5 / 100 ≤ sin x ∧ sin x ≤ hi - lo ^ 3 / 6 + hi ^ 5 / 100 := by
  have hx : 0 ≤ x := h0.trans hl
  have hb := abs_le.mp (sin_bound (x := x) (by rw [abs_of_nonneg hx]; exact hh.trans h1))
  rw [abs_of_nonneg hx] at hb
  have h3 : x ^ 3 ≤ hi ^ 3 := by gcongr
  have h3' : lo ^ 3 ≤ x ^ 3 := by gcongr
  have h5 : x ^ 5 ≤ hi ^ 5 := by gcongr
  constructor <;> linarith [hb.1, hb.2]

theorem sin_step : |sin (π / 128) - 24541228523 / 1000000000000| ≤ 2 / 10 ^ 10 := by
  have hl := pi_gt_d20
  have hh := pi_lt_d20
  obtain ⟨h1, h2⟩ := sin_near (x := π / 128) (lo := 3.14159265358979323846 / 128) (hi := 3.14159265358979323847 / 128)
    (by norm_num) (by linarith) (by linarith) (by norm_num)
  rw [abs_le]
  constructor
  · refine le_trans ?_ (sub_le_sub_right h1 _); norm_num
  · refine le_trans (sub_le_sub_right h2 _) ?_; norm_num

theorem cos_step : |cos (π / 128) - 999698818696 / 1000000000000| ≤ 1 / 10 ^ 10 := by
  have hl := pi_gt_d20
  have hh := pi_lt_d20
  obtain ⟨h1, h2⟩ := sin_near (x := π / 256) (lo := 3.14159265358979323846 / 256) (hi := 3.14159265358979323847 / 256)
    (by norm_num) (by linarith) (by linarith) (by norm_num)
  have hc : cos (π / 128) = 1 - 2 * sin (π / 256) ^ 2 := by
    rw [show π / 128 = 2 * (π / 256) by ring, cos_two_mul, cos_sq']; ring
  have h3 : (0.0122715382 : ℝ) ≤ sin (π / 256) := le_trans (by norm_num) h1
  have h4 : sin (π / 256) ≤ (0.0122715383 : ℝ) := le_trans h2 (by norm_num)
  rw [hc, abs_le]
  constructor <;> nlinarith

/-- Sine and cosine of i · π / 128 in steps of 10⁻¹², and a bound on the error of both. -/
def sines : Nat → Int × Int × Int
  | 0 => (0, 1000000000000, 0)
  | i + 1 =>
    let (s, c, e) := sines i
    ((s * 999698818696 + c * 24541228523) / 1000000000000, (c * 999698818696 - s * 24541228523) / 1000000000000, e + e / 40 + 403)

theorem sines_succ (i : Nat) : sines (i + 1) =
    (((sines i).1 * 999698818696 + (sines i).2.1 * 24541228523) / 1000000000000,
      ((sines i).2.1 * 999698818696 - (sines i).1 * 24541228523) / 1000000000000,
      (sines i).2.2 + (sines i).2.2 / 40 + 403) := rfl

/-- One addition of the angle π / 128: what the error of a sum of two products can grow to. -/
theorem turn_error {x y a b x' y' a' b' e d : ℝ} (hx : |x| ≤ 1) (hy : |y| ≤ 1) (ha : |a - a'| ≤ d) (hb : |b - b'| ≤ d)
    (hx' : |x - x'| ≤ e) (hy' : |y - y'| ≤ e) (ha' : |a'| ≤ 1) (hb' : |b'| ≤ 1 / 40) :
    |(x * a + y * b) - (x' * a' + y' * b')| ≤ e + e / 40 + 2 * d := by
  have he : 0 ≤ e := (abs_nonneg _).trans hx'
  have hd : 0 ≤ d := (abs_nonneg _).trans ha
  have h1 : |x * (a - a')| ≤ 1 * d := by rw [abs_mul]; gcongr
  have h2 : |a' * (x - x')| ≤ 1 * e := by rw [abs_mul]; gcongr
  have h3 : |y * (b - b')| ≤ 1 * d := by rw [abs_mul]; gcongr
  have h4 : |b' * (y - y')| ≤ 1 / 40 * e := by rw [abs_mul]; gcongr
  rw [show (x * a + y * b) - (x' * a' + y' * b')
    = x * (a - a') + a' * (x - x') + (y * (b - b') + b' * (y - y')) by ring]
  rw [abs_le] at *
  constructor <;> linarith [h1.1, h1.2, h2.1, h2.2, h3.1, h3.2, h4.1, h4.2]

/-- A whole quotient is within one of the exact one. -/
theorem quotient_error (v : Int) : |(v : ℝ) / 1000000000000 - ((v / 1000000000000 : Int) : ℝ)| ≤ 1 := by
  have h := Int.emod_add_mul_ediv v (1000000000000)
  have h0 := Int.emod_nonneg v (show (1000000000000 : Int) ≠ 0 by norm_num)
  have h1 := Int.emod_lt_of_pos v (show (0 : Int) < 1000000000000 by norm_num)
  have hr : (v : ℝ) = ((v % 1000000000000 : Int) : ℝ) + 1000000000000 * ((v / 1000000000000 : Int) : ℝ) := by exact_mod_cast h.symm
  have h0' : (0 : ℝ) ≤ ((v % 1000000000000 : Int) : ℝ) := by exact_mod_cast h0
  have h1' : ((v % 1000000000000 : Int) : ℝ) < 1000000000000 := by exact_mod_cast h1
  have hd : (v : ℝ) / 1000000000000 - ((v / 1000000000000 : Int) : ℝ) = ((v % 1000000000000 : Int) : ℝ) / 1000000000000 := by
    rw [hr, add_div]; ring
  rw [hd, abs_le]
  refine ⟨le_trans (by norm_num) (div_nonneg h0' (by norm_num)), ?_⟩
  rw [div_le_one (by norm_num)]
  exact h1'.le

theorem sines_near (i : Nat) :
    |sin (i * (π / 128)) - ((sines i).1 : ℝ) / 1000000000000| ≤ ((sines i).2.2 : ℝ) / 1000000000000
      ∧ |cos (i * (π / 128)) - ((sines i).2.1 : ℝ) / 1000000000000| ≤ ((sines i).2.2 : ℝ) / 1000000000000 := by
  induction i with
  | zero => norm_num [sines]
  | succ i ih =>
    obtain ⟨hs, hc⟩ := ih
    have h1 : |(999698818696 / 1000000000000 : ℝ)| ≤ 1 := by norm_num [abs_le]
    have h2 : |(24541228523 / 1000000000000 : ℝ)| ≤ 1 / 40 := by norm_num [abs_le]
    have h2' : |(-(24541228523 / 1000000000000) : ℝ)| ≤ 1 / 40 := by rwa [abs_neg]
    have hcs : |cos (π / 128) - 999698818696 / 1000000000000| ≤ 2 / 10 ^ 10 := cos_step.trans (by norm_num)
    have hsn : |(-sin (π / 128)) - (-(24541228523 / 1000000000000))| ≤ 2 / 10 ^ 10 := by
      rw [← neg_sub', abs_neg]; exact sin_step
    have ha : ((i + 1 : Nat) : ℝ) * (π / 128) = i * (π / 128) + π / 128 := by push_cast; ring
    have hq := Int.emod_add_mul_ediv (sines i).2.2 40
    have hq1 := Int.emod_lt_of_pos (sines i).2.2 (show (0 : Int) < 40 by norm_num)
    have he : ((sines i).2.2 : ℝ) / 40 ≤ (((sines i).2.2 / 40 : Int) : ℝ) + 1 := by
      have h : (sines i).2.2 ≤ 40 * ((sines i).2.2 / 40) + 40 := by omega
      have : ((sines i).2.2 : ℝ) ≤ 40 * (((sines i).2.2 / 40 : Int) : ℝ) + 40 := by exact_mod_cast h
      linarith
    rw [sines_succ, ha, sin_add, cos_add]
    constructor
    · have ht := turn_error (abs_sin_le_one _) (abs_cos_le_one _) hcs sin_step hs hc h1 h2
      have hd := quotient_error ((sines i).1 * 999698818696 + (sines i).2.1 * 24541228523)
      push_cast at hd ⊢
      rw [abs_le] at *
      constructor <;> linarith [hd.1, hd.2, ht.1, ht.2]
    · have ht := turn_error (abs_cos_le_one _) (abs_sin_le_one _) hcs hsn hc hs h1 h2'
      have hd := quotient_error ((sines i).2.1 * 999698818696 - (sines i).1 * 24541228523)
      push_cast at hd ⊢
      rw [abs_le] at *
      constructor <;> linarith [hd.1, hd.2, ht.1, ht.2]

/-- The enclosures decide every entry of the first quarter. -/
theorem quarter_decided : ∀ i < 65, 2 * (|32767 * (sines i).1 - 1000000000000 * sineEntry i| + 32767 * (sines i).2.2) ≤ 1000000000000 := by
  decide

set_option maxRecDepth 8192 in
/-- The symmetries from the first quarter (R153). -/
theorem sineEntry_symmetries : (∀ i < 129, 64 < i → sineEntry i = sineEntry (128 - i))
    ∧ (∀ i < 193, 128 < i → sineEntry i = -sineEntry (i - 128))
    ∧ (∀ i < 256, 192 < i → sineEntry i = -sineEntry (256 - i)) := by decide

theorem quarter_rounds (i : Nat) (h : i < 65) : |32767 * sin (i * (π / 128)) - sineEntry i| ≤ 1 / 2 := by
  obtain ⟨hs, -⟩ := sines_near i
  have hd : 2 * (|32767 * ((sines i).1 : ℝ) - 1000000000000 * (sineEntry i : ℝ)| + 32767 * ((sines i).2.2 : ℝ)) ≤ 1000000000000 := by
    exact_mod_cast quarter_decided i h
  have ha := abs_le.mp (show |32767 * ((sines i).1 : ℝ) - 1000000000000 * (sineEntry i : ℝ)| ≤ 1000000000000 / 2 - 32767 * ((sines i).2.2 : ℝ) by
    linarith)
  rw [abs_le] at *
  constructor <;> linarith [hs.1, hs.2, ha.1, ha.2]

/-- Every entry of the sine table is 32767 × sin(2πi / 256) to the nearest whole number (R153). -/
theorem sineEntry_rounds (i : Nat) (h : i < 256) : |32767 * sin (2 * π * i / 256) - sineEntry i| ≤ 1 / 2 := by
  have hi : 2 * π * i / 256 = i * (π / 128) := by ring
  rw [hi]
  by_cases h1 : i < 65
  · exact quarter_rounds i h1
  by_cases h2 : i < 129
  · have hq := quarter_rounds (128 - i) (by omega)
    rw [sineEntry_symmetries.1 i h2 (by omega)]
    have ha : (i : ℝ) * (π / 128) = π - ((128 - i : Nat) : ℝ) * (π / 128) := by
      rw [Nat.cast_sub (by omega)]; push_cast; ring
    rwa [ha, sin_pi_sub]
  by_cases h3 : i < 193
  · have hq := quarter_rounds (i - 128) (by omega)
    have he := sineEntry_symmetries.2.1 i h3 (by omega)
    have ha : (i : ℝ) * (π / 128) = ((i - 128 : Nat) : ℝ) * (π / 128) + π := by
      rw [Nat.cast_sub (by omega)]; push_cast; ring
    rw [he, ha, sin_add_pi]
    push_cast
    rw [← abs_neg]
    convert hq using 2
    ring
  · have hq := quarter_rounds (256 - i) (by omega)
    have he := sineEntry_symmetries.2.2 i h (by omega)
    have ha : (i : ℝ) * (π / 128) = 2 * π - ((256 - i : Nat) : ℝ) * (π / 128) := by
      rw [Nat.cast_sub (by omega)]; push_cast; ring
    rw [he, ha, sin_two_pi_sub]
    push_cast
    rw [← abs_neg]
    convert hq using 2
    ring

end Sys2Proof.Machine
end

