-- ==== Sys2Proof/Laws/Words.lean ====
section
/-! SUPPORT. The words the part packs: a word packed of fields that fit and do not overlap holds each of them, and 0 in
every other bit (R184). -/

namespace Sys2Proof.Machine

/-- Bit i of a packed word: some field covers it with a bit of its value that is 1. -/
theorem pack_getLsbD (fs : List (Nat × Nat × Nat)) (i : Nat) (h : i < 32) :
    (pack fs).getLsbD i
      = fs.any fun f => decide (f.2.1 ≤ i) && decide (i < f.2.1 + f.2.2) && f.1.testBit (i - f.2.1) := by
  induction fs with
  | nil => simp [pack]
  | cons f rest ih =>
    obtain ⟨v, lo, width⟩ := f
    simp only [pack, BitVec.getLsbD_or, ih, BitVec.getLsbD_ofNat, h, decide_true, Bool.true_and, List.any_cons,
      Nat.testBit_mul_two_pow, Nat.testBit_mod_two_pow]
    congr 1
    by_cases hlo : lo ≤ i
    · by_cases hw : i < lo + width
      · simp [hlo, hw, show i - lo < width by omega]
      · simp [hlo, hw, show ¬ i - lo < width by omega]
    · simp [hlo]

/-- A list of fields that a word can hold: each value fits its width, each field lies in the word, and no two overlap. -/
def FieldsFit (fs : List (Nat × Nat × Nat)) : Prop :=
  (∀ f ∈ fs, f.1 < 2 ^ f.2.2 ∧ f.2.1 + f.2.2 ≤ 32)
    ∧ fs.Pairwise fun f g => f.2.1 + f.2.2 ≤ g.2.1 ∨ g.2.1 + g.2.2 ≤ f.2.1

/-- A word packed of fields that fit holds them. -/
theorem pack_holds (fs : List (Nat × Nat × Nat)) (h : FieldsFit fs) : Holds (pack fs) fs := by
  obtain ⟨hfit, hdis⟩ := h
  have : Std.Symm fun f g : Nat × Nat × Nat => f.2.1 + f.2.2 ≤ g.2.1 ∨ g.2.1 + g.2.2 ≤ f.2.1 :=
    ⟨fun _ _ hab => Or.comm.mp hab⟩
  constructor
  · intro f hf
    obtain ⟨hv, hw⟩ := hfit f hf
    apply Nat.eq_of_testBit_eq
    intro j
    by_cases hj : j < f.2.2
    · have hbit := pack_getLsbD fs (j + f.2.1) (by omega)
      simp only [Nat.testBit_mod_two_pow, Nat.testBit_div_two_pow, hj, decide_true, Bool.true_and,
        BitVec.testBit_toNat, hbit]
      rw [Bool.eq_iff_iff, List.any_eq_true]
      constructor
      · rintro ⟨g, hg, hgb⟩
        simp only [Bool.and_eq_true, decide_eq_true_eq] at hgb
        by_cases hfg : f = g
        · subst hfg; simpa using hgb.2
        · have hd := hdis.forall hf hg hfg
          omega
      · intro hb
        exact ⟨f, hf, by simp [hb]; omega⟩
    · have h1 : f.1.testBit j = false := Nat.testBit_lt_two_pow (lt_of_lt_of_le hv (Nat.pow_le_pow_right (by omega) (by omega)))
      simp [Nat.testBit_mod_two_pow, hj, h1]
  · intro i hi hout
    rw [pack_getLsbD fs i hi, List.any_eq_false]
    intro f hf
    have := hout f hf
    simp only [Bool.and_eq_true, decide_eq_true_eq, not_and]
    omega

end Sys2Proof.Machine
end

