-- ==== Sys2Proof/Tests/Slice0.lean ====
section
/-! SUPPORT. The model's own tests: the well-formedness smoke tests, one-step tests against the spec's tables and worked
sequences (the source of each expected value stands in its comment), and a witness that the hypotheses of each obligation
can be met, clause by clause at the boundary of each range. -/

namespace Sys2Proof.Tests

open Sys2Proof.Machine

set_option maxRecDepth 8192

/-! ## Well-formedness: each check refuses an ill-formed term -/

theorem test_wf_edge_late : (Instr.xfsEdge 5121).wellFormed = false := by decide
theorem test_wf_edge_last : (Instr.xfsEdge 5120).wellFormed = true := by decide
theorem test_wf_field_is_run : (Instr.ignoredCommand 1).wellFormed = false := by decide
theorem test_wf_field_last : (Instr.ignoredCommand 7).wellFormed = true := by decide
theorem test_wf_code_is_request : (Instr.unknownRequest 0 1 8).wellFormed = false := by decide
theorem test_wf_code_first : (Instr.unknownRequest 0 1 9).wellFormed = true := by decide

/-- No row of the table gives bits, so no word spells a command. -/
theorem test_decode_none : decodeTableWord 8 0 = none := by decide

/-! ## Small states -/

/-- The part at work, port IDLE, clock FREE, nothing else as it does not stand after a reset. -/
def base : State := { State.reset with part := ⟨.working, false, false⟩ }

/-- A profile with hand-sized times. -/
def prof : Profile where
  inService := true
  muteEnable := true
  flashRestart := true
  flashMapping := some 11
  depth := 1
  marginalPolicy := .hold
  rounding := .nearest
  numbering := .direct
  sendingMode := .overlap
  afterCompletion := .forward
  unmatchedAction := .atTimeout
  multiplier := 20
  gain := 2
  endKey := 11
  ratioLo := 50
  ratioHi := 75
  trapMask := 0
  faultPersistence := 6
  guard := 10
  bMin := 20
  bMax := 100
  mMin := 8
  fMax := 400
  rel := 800
  pNom := 100
  pLo := 80
  pHi := 130
  tidMin := 100
  tidMax := 600
  tComplete := 50
  tOn := 200
  tOff := 140
  aLow := 8000
  aHigh := 10000

/-- A line under that profile, on hook, its loop open. -/
def idleLine : Line := { Line.reset with main := .onHook, adopted := some prof, estimate := 1600 }

/-- The part at work with one line record replaced. -/
def lineAt (l : Line) : State := base.setLine 3 l

/-- The part at work with a scan frame shifting and one line record replaced. -/
def scanning (l : Line) : State := { lineAt l with scan := { base.scan with shifting := true } }

/-- The part at work with another clock. -/
def clocked (c : Clock) : State := { base with clk := c }

/-- The part at work with the port in a state and a sequence in flight. -/
def porting (p : PortState) (q : Option Sequence) : State :=
  { base with arc := { base.arc with port := p, inFlight := q } }

/-- A granted sequence at a stage, with what it has read. -/
def seqAt (kind : SequenceKind) (stage : Stage) (got : List Word) : Sequence :=
  { Sequence.begin kind 0x1000 with stage := stage, granted := true, got := got }

/-- A sender state on line 3. -/
def sending (x : Sender) (l : Line) : State :=
  (lineAt { l with attached := some 2 }).setSender 2 { x with line := some 3 }

/-- A frame in which line 3 alone reads a code (bit 6 is its high bit), all other lines OPEN. -/
def frame3 (high low : Bool) : BitVec 192 :=
  BitVec.ofNat 192 ((if high then 64 else 0) + (if low then 128 else 0))

/-- A test of the next state. -/
def answers (o : Host.Outcome State Fault Refusal) (f : State → Bool) : Bool :=
  match o with
  | .next t => f t
  | .fault _ => false
  | .refused _ => false

def callLine : Line := { idleLine with main := .collecting, loop := .closed }
def trainLine : Line :=
  { callLine with sub := .make, pulses := 3, pulseBreak := 66, heldMake := 34, threshold := some 250, intervalTimer := 250 }
def breakLine : Line :=
  { callLine with sub := .brk, loop := .opened, pulses := 3, pulseBreak := 66, heldMake := 34, threshold := some 250
                  intervalTimer := 59 }
def keyed (n : Nat) (l : Line) : Line := { l with store := List.replicate n ⟨5, .dialled⟩ }

/-! ## Operations against the spec's tables -/

/-- R57's table, n = 10. -/
theorem test_numbering_ten :
    [Numbering.direct, .inverse, .offset].map (digitKey · 10) = [some 0, some 0, some 9] := by decide
/-- R167's examples: exponent 0 mantissa 6, 3 and 25, 5 and 8, 5 and 31, exponent 7. -/
theorem test_time_codes : [6, 0x79, 0xA8, 0xBF, 0xE0].map timeCode = [6, 1600, 8192, 31744, 31744] := by decide
/-- R168, R170: the words sum to 0 and Rel = Bmax = 0 fails check 11, field 12, the first that fails; a sum of 1. -/
theorem test_profile_check : checkProfile (List.replicate 8 0) = .badField 12
    ∧ checkProfile (1 :: List.replicate 7 0) = .badCheck := by decide
/-- R154's examples: entries 64 and 192 under amplitude 32767, and both sums saturated. -/
theorem test_tone_limits : component 32767 (sineEntry 64) = 32766 ∧ component 32767 (sineEntry 192) = -32767
    ∧ toneValue 32767 32767 0x4000 0x4000 = 32767 ∧ toneValue 32767 32767 0xC000 0xC000 = -32767 := by decide
/-- R72: Pest 1600, period 99 (Δ = −16), g = 2: q = −4; a half away from zero at Δ = −2. -/
theorem test_tracker : track prof 99 1600 = 1596 ∧ correction 2 (-2) = -1 ∧ correction 2 1 = 0 := by decide
/-- R76, R78: 20 × 1600 / 128 = 250; UP takes 250.15… to 251. -/
theorem test_threshold : thresholdOf prof 1600 = 250 ∧ thresholdOf { prof with rounding := .up } 1601 = 251 := by decide
/-- R104: the longer prefix is selected, and a live longer one blocks the shorter. -/
theorem test_plan :
    let a : PlanEntry := ⟨[some 1], some 3, false, .normal⟩
    let b : PlanEntry := ⟨[some 1, none], none, false, .normal⟩
    let t := [PlanPosition.valid a, .vacant, .valid b]
    (evaluate t [1]).selected = some (0, a) ∧ (evaluate t [1]).blocked = true
      ∧ (evaluate t [1, 7]).selected = some (2, b) ∧ (evaluate t [2]).live = false := by decide
/-- R101: a length below the prefix length makes the entry ignored; without the valid mark it is vacant. -/
theorem test_classify : classify 0x21 0x00010102 = .ignored ∧ classify 0x21 0x00000102 = .vacant
    ∧ classify 0xF1 0x00010002 = .valid ⟨[some 1, none], none, false, .normal⟩ := by decide

/-! ## One step of each command -/

theorem test_power_on : answers (exec .powerOn base) (fun t => t.part.phase == .inReset && t.regs.powerOnFlag) = true := by
  decide
theorem test_pin_short : answers (exec (.pinReset 63) base) (fun t => t.part.phase == .working) = true := by decide
theorem test_pin_long : answers (exec (.pinReset 64) base) (fun t => t.regs.resetCause == .pin) = true := by decide
theorem test_hold_end : answers (exec .startUpHoldEnd State.reset) (fun t => t.now == ⟨0, 1⟩ && t.scan.shifting) = true := by
  decide
/-- R204: a frame of 2560 cycles at the nominal divider. -/
theorem test_frame_start : answers (exec .frameStart base) (fun t => t.clk.frame == 1 && t.clk.spacing == 2560) = true := by
  decide
/-- R212: the pending setting's seconds in place of the increment. -/
theorem test_rollover :
    answers (exec .timeRollover (clocked { base.clk with
      tick := 1999, rolloverDue := true, pendingTime := some ⟨500000, 7⟩ }))
      (fun t => t.now == ⟨500000, 0⟩ && t.clk.timeAdopted == some 7) = true := by decide
theorem test_first_edge : answers (exec (.xfsEdge 100) base)
    (fun t => t.clk.state == .qualifying && t.jnl.staging.length == 1 && t.regs.attention == 8) = true := by decide
def heldFrame : Clock :=
  { base.clk with state := .qualifying, lockDue := true, qualCount := 1024, frame := 3, frameAge := 2482, spacing := 2482 }
theorem test_handover : answers (exec (.xfsEdge 2483) (clocked heldFrame))
    (fun t => t.clk.state == .locked && t.clk.frame == 0 && t.hwy.xtxd[5] == some 0) = true := by decide
theorem test_handover_timeout : answers (exec .lockHandoverTimeout (clocked heldFrame))
    (fun t => t.clk.state == .qualifying && t.clk.qualCount == 0 && t.clk.frame == 0) = true := by decide
theorem test_qualify_timeout : answers (exec .qualifyTimeout (clocked
    { base.clk with state := .qualifying, lockedSince := true, spacing := 10000 }))
    (fun t => t.clk.state == .holdover) = true := by decide
def lockedClock (missing : Nat) : Clock :=
  { base.clk with state := .locked, lockedSince := true, missing := missing, frame := 1, window := some ⟨255, 1000⟩ }
theorem test_fill : answers (exec .filledFrame (clocked (lockedClock 2)))
    (fun t => t.clk.state == .locked && t.clk.missing == 3 && t.clk.window == some ⟨255, 3637⟩) = true := by decide
theorem test_fill_loses : answers (exec .filledFrame (clocked (lockedClock 3)))
    (fun t => t.clk.state == .holdover && t.hwy.xtxd[0] == none && t.clk.window == none) = true := by decide
/-- R210's clamp, and the worked sequence's 2,621,440 cycles. -/
theorem test_divider : answers (exec .dividerWindowClose (clocked { lockedClock 0 with windowDone := some 2621440 }))
    (fun t => t.clk.divider == 10240) = true ∧ learnedDivider 2500000 = 10036 := by decide
/-- 01, worked sequence: a CLOSED sample that brings I to D seizes a line on hook. -/
theorem test_scan_seizes : answers (exec (.scanFrameComplete (frame3 false true)) (scanning idleLine))
    (fun t => (t.line 3).main == .seizing && (t.line 3).loop == .closed && (t.line 2).main == .outOfService) = true := by
  decide
/-- R50: the fourth pulse ends; the period 66 + 34 leaves the nominal estimate and T_id 250. -/
theorem test_scan_pulse : answers (exec (.scanFrameComplete (frame3 false true)) (scanning breakLine))
    (fun t => (t.line 3).pulses == 4 && (t.line 3).pulseBreak == 60 && (t.line 3).threshold == some 250) = true := by
  decide
theorem test_guard : answers (exec (.guardExpiry 3) (lineAt { idleLine with main := .seizing, loop := .closed, phaseTimer := 10 }))
    (fun t => (t.line 3).main == .collecting && t.jnl.staging == [⟨some 3, ⟨0, 0⟩, .seize⟩]) = true := by decide
theorem test_interdigit : answers (exec (.interdigitExpiry 3) (lineAt trainLine))
    (fun t => (t.line 3).digits == [3] && (t.line 3).attached == some 0 && (t.line 3).completionTimer == some 0) = true := by
  decide
theorem test_interdigit_early : answers (exec (.interdigitExpiry 3) (lineAt { trainLine with intervalTimer := 249 }))
    (fun t => (t.line 3).digits == []) = true := by decide
def timedLine : Line := { callLine with digits := [1, 2], completionTimer := some 50 }
def timedState : State := { lineAt timedLine with scan := { base.scan with tickSampled := true } }
/-- R109: no selected entry at the expiry gives UNMATCHED. -/
theorem test_completion_timer : answers (exec (.completionTimerExpiry 3) timedState)
    (fun t => (t.line 3).main == .through && (t.line 3).sticky == 0x100) = true := by decide
def openLine : Line := { keyed 2 callLine with loop := .opened, intervalTimer := 800 }
theorem test_release : answers (exec (.release 3) (lineAt openLine))
    (fun t => (t.line 3).main == .onHook && t.jnl.staging == [⟨some 3, ⟨0, 0⟩, .release 2⟩]) = true := by decide
def faultedLine : Line := { idleLine with faultRun := 6, runTestMet := true }
theorem test_fault_block : answers (exec (.faultBlock 3) (lineAt faultedLine))
    (fun t => (t.line 3).main == .blocked .fault && (t.line 3).faultRun == 0) = true := by decide
def clearedLine : Line := { idleLine with main := .blocked .fault, clearRun := 6, runTestMet := true }
theorem test_fault_return : answers (exec (.faultReturn 3) (lineAt clearedLine))
    (fun t => (t.line 3).main == .onHook && (t.line 3).clearRun == 0) = true := by decide
/-- R10: the FAULT sample that brings the run to the persistence sets the mark. -/
theorem test_fault_sample : answers (exec (.scanFrameComplete (frame3 true true)) (scanning { idleLine with faultRun := 5 }))
    (fun t => (t.line 3).faultRun == 6 && (t.line 3).faultBlockDue) = true := by decide
/-- R14, R32: a release adopts a pending profile of persistence 0; the block due on the same sample stays due. -/
def releasedAndFaulted : Line :=
  { openLine with
    faultRun := 6, runTestMet := true, pendingProfile := some { prof with faultPersistence := 0 }, profileOutcome := .deferred }
theorem test_release_keeps_block : answers (exec (.release 3) (lineAt releasedAndFaulted))
    (fun t => (t.line 3).main == .onHook && (t.line 3).faultBlockDue) = true := by decide
def grantedState : State := sending { Sender.reset with state := .on, burstDue := true } (keyed 1 callLine)
theorem test_burst_start : answers (exec (.burstStart 2) grantedState)
    (fun t => (t.sender 2).begun && (t.sender 2).key == some 5) = true := by decide
def burstState : State := sending { Sender.reset with state := .on, begun := true, timer := 200 } (keyed 1 callLine)
/-- Frame 0 of a tick under a locked clock, composed already, its slots up to 3 taken since. -/
def inFrame0 (s : State) : State :=
  { s with
    clk := { lockedClock 0 with frame := 0 }
    hwy := { s.hwy with
      slot := 4, delayed := s.hwy.delayed.set 3 7, xtxd := Vector.replicate 96 (some 9) } }
/-- R148, R150: silence from frame 0 of the tick in the sender's slot; the other slots as composed. -/
theorem test_burst_expiry : answers (exec (.burstExpiry 2) (inFrame0 burstState))
    (fun t => (t.sender 2).state == .gap && t.hwy.xtxd[3] == some 0 && t.hwy.xtxd[4] == some 9) = true := by decide
def gapState (keys : Nat) (resend : Bool) : State :=
  sending { Sender.reset with state := .gap, timer := 140, resendMark := resend } (keyed keys callLine)
/-- R148: TONE to PASS from frame 0 of the tick, with that frame's delayed sample; the other slots as composed. -/
theorem test_gap_frees : answers (exec (.gapExpiry 2) (inFrame0 (gapState 1 false)))
    (fun t => (t.sender 2).state == .free && (t.line 3).attached == none && (t.line 3).store == []
      && t.hwy.xtxd[3] == some 7 && t.hwy.xtxd[4] == some 9) = true := by decide
theorem test_gap_resends : answers (exec (.gapExpiry 2) (gapState 1 true))
    (fun t => (t.sender 2).state == .on && (t.line 3).store.length == 1) = true := by decide
/-- Frame 0 of a tick, the fourth filled frame, before the loss: not driven. -/
def losingFrame (s : State) : State := { s with clk := { lockedClock 4 with frame := 0 } }
/-- R140: the expiry first, its SEND_DONE record before the CLOCK record; with keys left the next is in flight and paused. -/
theorem test_gap_before_loss :
    (loseReference (takeAllExpiries [2] (losingFrame (gapState 1 false)))).jnl.staging.map (·.body)
        = [.sendDone 2 1 .empty, .clock .holdover]
      ∧ (let t := loseReference (takeAllExpiries [2] (losingFrame (gapState 2 false)))
        (t.sender 2).state = .paused ∧ (t.sender 2).keysSent = 1 ∧ (t.line 3).store.length = 1 ∧ t.hwy.xtxd[3] = none) := by
  decide
/-- R140: the loss first: the old key stays in flight. -/
theorem test_loss_before_gap :
    answers (exec (.gapExpiry 2) (loseReference (takeAllExpiries [] (losingFrame (gapState 1 false)))))
      (fun t => (t.sender 2).state == .paused && (t.sender 2).keysSent == 0 && (t.line 3).store.length == 1) = true := by
  decide
theorem test_slot : answers (exec (.lineSlotReceived 0 7) base)
    (fun t => t.hwy.slot == 1 && t.hwy.delay[0].getLast? == some 7) = true := by decide
def queued (sweep : Fin 97) : State :=
  { base with arc := { base.arc with port := .running, queue := [.visit, .journal], sweep := sweep } }
theorem test_sequence_start : answers (exec .sequenceStart (queued 96))
    (fun t => t.arc.queue == [.journal] && (t.arc.inFlight.map (·.kind)) == some .headerVisit) = true := by decide
theorem test_bus_grant : answers (exec .busGrant (porting .starting (some (Sequence.begin .starting 0x1000))))
    (fun t => busAddress t == some 0x1000) = true := by decide
def writing : State := porting .running (some { seqAt .journal .writing [] with out := some [0x11223344], count := 0 })
/-- Little-endian, at area base + 28 (R185). -/
theorem test_write : answers (exec (.transferDone 0) writing)
    (fun t => t.mem == [(0x101C, 0x44), (0x101D, 0x33), (0x101E, 0x22), (0x101F, 0x11)]) = true := by decide
theorem test_last_read : answers (exec (.transferDone 9) (porting .running (some (seqAt .journal .reading []))))
    (fun t => (t.arc.inFlight.map (·.stage)) == some .readDone) = true := by decide
def visited : State := (porting .running (some (seqAt (.lineVisit 3) .readDone [0x00000100, 0]))).setLine 3
  { idleLine with profileEdition := some 0 }
theorem test_take_up : answers (exec (.lineTakeUp true) visited)
    (fun t => (t.line 3).requestEdition == some 1 && (t.arc.inFlight.map (·.stage)) == some .writing) = true := by decide
theorem test_none : answers (exec (.requestNone 3 1) base) (fun t => (t.line 3).requestEdition == some 1) = true := by decide
/-- R122: operand order, low keys first (R186). -/
theorem test_inject : answers (exec (.inject 3 1 2 0x21) (lineAt { keyed 30 callLine with attached := some 2 }))
    (fun t => ((t.line 3).store.drop 30).map (·.key) == [1, 2] && (t.line 3).requestOutcome == .done) = true := by decide
theorem test_inject_no_room : answers (exec (.inject 3 1 2 0x21) (lineAt (keyed 31 callLine)))
    (fun t => (t.line 3).store.length == 31 && (t.line 3).requestOutcome == .noRoom) = true := by decide
theorem test_flush : answers (exec (.flush 3 1) (gapState 4 false))
    (fun t => (t.line 3).store.length == 1 && (t.sender 2).flushMark) = true := by decide
theorem test_end_number : answers (exec (.endNumber 3 1) (lineAt timedLine))
    (fun t => (t.line 3).main == .through && (t.line 3).sticky == 0 && t.jnl.staging.length == 1) = true := by decide
def suspended (target : ResumeTarget) : Line :=
  { callLine with main := .suspended, resumeTarget := some target, digits := if target = .collecting then [1] else [] }
theorem test_resume : answers (exec (.resume 3 1) (lineAt (suspended .collecting)))
    (fun t => (t.line 3).main == .collecting && (t.line 3).completionTimer == some 0) = true := by decide
theorem test_clear_flags : answers (exec (.clearFlags 3 1) (lineAt { idleLine with sticky := 5 }))
    (fun t => (t.line 3).sticky == 0) = true := by decide
theorem test_block : answers (exec (.block 3 1) (gapState 2 false))
    (fun t => (t.line 3).main == .blocked .admin && (t.sender 2).state == .free && t.jnl.staging.length == 2) = true := by
  decide
theorem test_unblock : answers (exec (.unblock 3 1) (lineAt { idleLine with main := .blocked .admin }))
    (fun t => (t.line 3).main == .onHook) = true := by decide
/-- R31: with the tick's own sample still to come, the line waits for the next tick's. -/
theorem test_unblock_skips : answers (exec (.unblock 3 1) (scanning { idleLine with main := .blocked .admin }))
    (fun t => (t.line 3).skipSamples == 1) = true := by decide
theorem test_skipped_sample : answers (exec (.scanFrameComplete (frame3 false true)) (scanning { idleLine with skipSamples := 1 }))
    (fun t => t.line 3 == idleLine) = true := by decide
theorem test_reset_speed : answers (exec (.resetSpeed 3 1) (lineAt { idleLine with estimate := 9 }))
    (fun t => (t.line 3).estimate == 1600) = true := by decide
theorem test_unknown : answers (exec (.unknownRequest 3 1 200) base)
    (fun t => (t.line 3).requestOutcome == .unknownRequest) = true := by decide
def reported : State :=
  { porting .running (some (seqAt (.lineVisit 3) .writeDone [])) with
    arc := { (porting .running (some (seqAt (.lineVisit 3) .writeDone []))).arc with sweep := 3 } }
theorem test_visit_complete : answers (exec .visitComplete reported)
    (fun t => t.arc.sweep == 4 && t.arc.inFlight == none) = true := by decide
/-- R196: the release index 5 is out of span of an empty journal; the wake count is taken up. -/
theorem test_header_take_up :
    answers (exec (.headerTakeUp false) (porting .running (some (seqAt .headerVisit .readDone [32, 5, 0x2003, 0x0700, 500000]))))
      (fun t => t.jnl.wakeCount == 32 && t.jnl.heldRelease == 0 && t.clk.pendingTime == some ⟨500000, 7⟩
        && (t.arc.inFlight.map (·.planAddress)) == some 0x2000) = true := by decide
def planImage : State := porting .running (some (seqAt .headerVisit .planReadDone [0, 0]))
theorem test_plan_load : answers (exec (.planLoadOutcome false) planImage)
    (fun t => t.plan.edition == some 0 && t.plan.table.length == 64) = true := by decide
theorem test_header_done : answers (exec .headerVisitComplete (porting .halting (some (seqAt .headerVisit .writeDone []))))
    (fun t => t.arc.port == .idle) = true := by decide
def header (format : Word) : State := porting .starting (some (seqAt .starting .readDone [format, 0x4000, 32, 200]))
/-- The worked sequence of 11: format 1, 96 lines, length code 2 (N = 256). -/
theorem test_header_good : answers (exec .headerCheck (header 0x00026001))
    (fun t => t.arc.port == .running && t.jnl.slots == 256 && t.jnl.head == 200 && t.arc.queue == [.journal]) = true := by
  decide
theorem test_header_bad : answers (exec .headerCheck (header 0x00076001))
    (fun t => t.arc.port == .faulted && t.regs.faultCode == .badHeader) = true := by decide
def journalAt (stage : Stage) (count staged : Nat) : State :=
  { porting .running (some { seqAt .journal stage [0] with count := count }) with
    jnl := { base.jnl with staging := List.replicate staged ⟨some 3, ⟨0, 1⟩, .block .fault⟩, gap := if staged = 32 then 9 else 0 } }
theorem test_release_read : answers (exec .releaseRead (journalAt .readDone 0 32))
    (fun t => (t.arc.inFlight.map (·.count)) == some 8
      && (t.arc.inFlight.bind (·.out)).map (·.length) == some 33) = true := by decide
/-- R193: 32 − 8 records stay and the GAP record of 9 joins them; R202: URGENT. -/
theorem test_commit : answers (exec .journalCommit (journalAt .writeDone 8 32))
    (fun t => t.jnl.staging.length == 25 && t.jnl.gap == 0 && t.jnl.head == 8 && t.regs.attention == 2) = true := by decide
theorem test_hold_off : answers (exec .holdOffClear { queued 0 with
      jnl := { base.jnl with holdOff := true, holdOffDue := true, publish := true }, arc := { (queued 0).arc with queue := [] } })
    (fun t => t.arc.queue == [.journal] && t.jnl.holdOff == false) = true := by decide
theorem test_bus_error : answers (exec (.busError true) writing)
    (fun t => t.arc.port == .faulted && t.regs.faultCode == .busError && t.regs.attention == 4) = true := by decide
theorem test_bus_timeout : answers (exec .busTimeout { writing with arc := { writing.arc with busWait := 2 } })
    (fun t => t.regs.faultCode == .busTimeout) = true := by decide
theorem test_run : answers (exec .run base) (fun t => t.arc.port == .starting) = true := by decide
theorem test_halt : answers (exec .halt (queued 0)) (fun t => t.arc.port == .idle && t.arc.queue == []) = true := by decide
theorem test_clear_fault : answers (exec .clearFault (porting .faulted none)) (fun t => t.arc.port == .idle) = true := by decide
theorem test_soft_reset : answers (exec .softReset base) (fun t => t.regs.resetCause == .soft && t.part.phase == .hold) = true := by
  decide
theorem test_area_base : answers (exec (.areaBaseWrite 0x1007) base) (fun t => t.regs.areaBase == 0x1004) = true := by decide
theorem test_status : answers (exec (.statusWrite 0x80) base) (fun t => t.regs.powerOnFlag == false) = true := by decide
theorem test_attention : answers (exec (.attentionWrite 5) { base with regs := { base.regs with attention := 15 } })
    (fun t => t.regs.attention == 10 && !attnN t) = true := by decide
theorem test_reset_n_high : answers (exec .resetNReturnsHigh { base with part := ⟨.inReset, false, true⟩ })
    (fun t => t.part.phase == .hold) = true := by decide
theorem test_supply : answers (exec .supplyInOperatingRange { base with part := ⟨.inReset, true, true⟩ })
    (fun t => t.part.phase == .inReset) = true := by decide
/-- R213: address bits 2 and 3 alone are decoded, and of a CONTROL word bits 0 to 2. -/
theorem test_register_write : registerWrite 0x40000014 0xFFFFFFFA = .halt ∧ registerWrite 0x18 0x80 = .statusWrite 0x80
    ∧ registerWrite 0xF0000004 7 = .ignoredCommand 7 := by decide
/-- R213: STATUS of a RUNNING port under a FREE clock after power-on. -/
theorem test_register_read : readRegister 0x28 (queued 0) = 0x82 ∧ readRegister 4 (queued 0) = 0 := by decide
theorem test_step_front : answers (step { base with pending := [.run, .halt] }) (fun t => t.pending == [.halt]) = true := by
  decide

/-! ## Witnesses: states and operands that meet the hypotheses of each obligation, clause by clause -/

/-- The hypotheses every statement about a command at work begins with, on a state with line 3 under prof. -/
def atWork (s : State) : Bool := s.part.phase == .working && (s.line 3).adopted == some prof

theorem witness_StepTakesFront :
    ({ base with pending := [.run, .halt] } : State).pending = .run :: [.halt] ∧ base.pending = [] := by decide
theorem witness_MemoryAndAttention :
    (∃ t, exec (.transferDone 0) writing = .next t ∧ t.mem ≠ writing.mem)
      ∧ (∃ t, exec .clearFault base = .next t) ∧ isReset .clearFault = false
      ∧ (∃ t, exec (.attentionWrite 15) base = .next t) ∧ base.part.phase = .working :=
  ⟨⟨_, rfl, by decide⟩, ⟨_, rfl⟩, rfl, ⟨_, rfl⟩, rfl⟩
theorem witness_ClockChangesAreRecorded :
    (∃ t, exec (.xfsEdge 100) base = .next t ∧ t.clk.state ≠ base.clk.state) ∧ isReset (.xfsEdge 100) = false
      ∧ (∃ t, exec .filledFrame (clocked (lockedClock 3)) = .next t ∧ t.clk.state ≠ (clocked (lockedClock 3)).clk.state)
      ∧ (clocked (lockedClock 3)).clk.state = .locked :=
  ⟨⟨_, rfl, by decide⟩, rfl, ⟨_, rfl, by decide⟩, rfl⟩
theorem witness_LineCommandsKeepTheRest :
    lineOf (.flush 3 1) = some 3 ∧ ∃ t, exec (.flush 3 1) (gapState 4 false) = .next t := ⟨rfl, ⟨_, rfl⟩⟩
theorem witness_ResetsOfEachKind : base.part.phase = .working ∧ State.reset.part.phase ≠ .working
    ∧ 64 ≤ 64 ∧ 63 < 64 := by decide
theorem witness_ResetEndsIntoTheHold : State.reset.part.phase = .hold ∧ base.part.phase ≠ .hold := by decide
theorem witness_FrameStartsFromTheOscillator :
    base.part.phase = .working ∧ base.clk.state ≠ .locked
      ∧ ¬ (base.clk.state = .qualifying ∧ base.clk.lockDue = true ∧ base.clk.frame = 3)
      ∧ (clocked heldFrame).part.phase = .working ∧ (clocked heldFrame).clk.state ≠ .locked
      ∧ (clocked heldFrame).clk.state = .qualifying ∧ (clocked heldFrame).clk.lockDue = true
      ∧ (clocked heldFrame).clk.frame = 3 := by decide
def rolling : State := clocked { base.clk with tick := 1999, rolloverDue := true, windowDone := some 2621440 }
theorem witness_RolloverAndDividerWindow :
    rolling.part.phase = .working ∧ rolling.clk.rolloverDue = true ∧ rolling.clk.windowDone = some 2621440 := by decide
def qualifying (spacing : Nat) (due : Bool) : State :=
  clocked { base.clk with state := .qualifying, qualCount := 1023, lockDue := due, frame := 3, spacing := spacing }
theorem witness_EdgesBeforeTheLock :
    (base.part.phase = .working ∧ (base.clk.state = .free ∨ base.clk.state = .holdover) ∧ base.clk.frameAge ≤ 2560
      ∧ 2560 ≤ max (if base.clk.frame = 3 then base.clk.divider - 3 * (base.clk.divider / 4) else base.clk.divider / 4)
          base.clk.frameAge)
    ∧ (let s := qualifying 2483 false
       s.part.phase = .working ∧ s.clk.state = .qualifying ∧ s.clk.frameAge ≤ 0 ∧ 2483 ≤ s.clk.spacing + 0
        ∧ s.clk.spacing + 0 ≤ 2637 ∧ ¬ (s.clk.lockDue = true ∧ s.clk.frame = 3 ∧ 2483 ≤ 0))
    ∧ (let s := qualifying 2482 true
       s.part.phase = .working ∧ s.clk.state = .qualifying ∧ s.clk.frameAge ≤ 0
        ∧ ¬ (2483 ≤ s.clk.spacing + 0 ∧ s.clk.spacing + 0 ≤ 2637))
    ∧ (let s := qualifying 0 true
       s.part.phase = .working ∧ s.clk.state = .qualifying ∧ s.clk.frameAge ≤ 5120
        ∧ 5120 ≤ (if s.clk.lockDue = true ∧ s.clk.frame = 3 then 5120 else 0)
        ∧ ¬ (2483 ≤ s.clk.spacing + 5120 ∧ s.clk.spacing + 5120 ≤ 2637)) := by decide
theorem witness_HandoverEdgeLocks :
    let s := clocked heldFrame
    s.part.phase = .working ∧ s.clk.state = .qualifying ∧ s.clk.lockDue = true ∧ s.clk.frame = 3
      ∧ s.clk.frameAge ≤ 2483 ∧ 2483 ≤ 2483 ∧ 2483 ≤ 5120 ∧ 2483 ≤ s.clk.spacing + (2483 - s.clk.frameAge)
      ∧ s.clk.spacing + (2483 - s.clk.frameAge) ≤ 2637 := by decide
def lockedFrame (frame ticks : Nat) : State :=
  clocked { lockedClock 0 with frame := frame, window := some ⟨ticks, 1000⟩ }
theorem witness_EdgesPaceTheLockedClock :
    let s := lockedFrame 1 9
    let u := lockedFrame 3 254
    let v := lockedFrame 3 255
    s.part.phase = .working ∧ s.clk.state = .locked ∧ s.clk.frameAge ≤ 2482 ∧ 2482 < 2483 ∧ 2483 ≤ 2483 ∧ 2637 ≤ 2637
      ∧ (s.clk.frame + 1) % 4 ≠ 0 ∧ u.part.phase = .working ∧ u.clk.state = .locked ∧ (u.clk.frame + 1) % 4 = 0
      ∧ u.clk.window = some ⟨254, 1000⟩ ∧ 254 < 255 ∧ v.clk.state = .locked ∧ (v.clk.frame + 1) % 4 = 0
      ∧ v.clk.window = some ⟨255, 1000⟩ := by decide
theorem witness_QualifyingTimesOut :
    let s := clocked heldFrame
    let u := clocked { base.clk with state := .qualifying, spacing := 7680 }
    s.part.phase = .working ∧ s.clk.state = .qualifying ∧ s.clk.lockDue = true ∧ s.clk.frame = 3
      ∧ u.part.phase = .working ∧ u.clk.state = .qualifying
      ∧ u.clk.frameAge + (10240 - u.clk.spacing) ≤ u.clk.frameLimit := by decide
theorem witness_FilledFrames :
    (clocked (lockedClock 2)).part.phase = .working ∧ (clocked (lockedClock 2)).clk.state = .locked
      ∧ (clocked (lockedClock 2)).clk.missing ≤ 2 ∧ (clocked (lockedClock 3)).clk.state = .locked
      ∧ (clocked (lockedClock 3)).clk.missing = 3 ∧ ((clocked (lockedClock 3)).clk.frame + 1) % 4 ≠ 0
      ∧ ((clocked { lockedClock 3 with frame := 3 }).clk.frame + 1) % 4 = 0
      ∧ (lockedClock 3).window = some ⟨255, 1000⟩ ∧ 255 ≤ 255 ∧ (lockedFrame 3 254).clk.window = some ⟨254, 1000⟩ := by
  decide
/-- A line whose sample raises a transition. -/
def transits (code : LoopCode) (l : Line) : Transition := (conditionLine prof code l).2
theorem witness_ScanFrameSamples :
    let s := scanning callLine
    let train := { breakLine with marginalRaised := false }
    let skipping := scanning { idleLine with skipSamples := 1 }
    s.part.phase = .working ∧ s.scan.shifting = true ∧ (s.line 2).main = .outOfService
      ∧ ((scanning clearedLine).line 3).main = .blocked .fault ∧ (s.line 3).adopted = some prof
      ∧ (s.line 3).main = .collecting ∧ (s.line 3).main.conditioning = true ∧ (s.line 3).skipSamples = 0
      ∧ (skipping.line 3).main.conditioning = true ∧ (skipping.line 3).skipSamples ≠ 0
      ∧ frameCode (frame3 true false) 3 = .marginal ∧ transits .marginal train = .none ∧ train.sub ≠ .idle
      ∧ train.marginalRaised = false ∧ train.main = .collecting
      ∧ (∀ m, m ≠ 3 → ((scanning train).line m).main = .outOfService) := by decide
def makeFrame : BitVec 192 := frame3 false true
theorem witness_MakeStartSeizesOrStartsATrain :
    let s := scanning idleLine
    let a := { callLine with loop := .opened, intervalTimer := 19 }
    let b := { callLine with loop := .opened, intervalTimer := 99 }
    let given := { idleLine with main := .seizing, loop := .closed, integrator := 1 }
    s.part.phase = .working ∧ s.scan.shifting = true ∧ (s.line 3).adopted = some prof ∧ (s.line 3).skipSamples = 0
      ∧ (∀ m, m ≠ 3 → (s.line m).main = .outOfService) ∧ transits .opened given = .breakStart ∧ given.main = .seizing
      ∧ frameCode makeFrame 3 = .closed ∧ transits .closed idleLine = .makeStart ∧ idleLine.main = .onHook ∧ prof.guard ≠ 0
      ∧ (conditionLine { prof with guard := 0 } .closed { idleLine with adopted := some { prof with guard := 0 } }).2
          = .makeStart
      ∧ transits .closed a = .makeStart ∧ a.main = .collecting ∧ a.sub = .idle ∧ prof.bMin = min (a.intervalTimer + 1) 65535
      ∧ transits .closed b = .makeStart ∧ b.sub = .idle ∧ min (b.intervalTimer + 1) 65535 = prof.bMax := by decide
theorem witness_PulseBreakEnds :
    let s := scanning breakLine
    let l := breakLine
    let slow := { l with heldMake := 100 }
    s.part.phase = .working ∧ s.scan.shifting = true ∧ (s.line 3).adopted = some prof ∧ (s.line 3).skipSamples = 0
      ∧ (s.line 3).main = .collecting ∧ (∀ m, m ≠ 3 → (s.line m).main = .outOfService)
      ∧ (s.line 3).sub = .brk ∧ (s.line 3).reopened = false ∧ (s.line 3).loop = .opened
      ∧ transits .closed l = .makeStart ∧ prof.bMin ≤ 60 ∧ 60 ≤ prof.bMax ∧ min (l.intervalTimer + 1) 65535 = 60
      ∧ speedBad prof (l.pulseBreak + l.heldMake) = false ∧ speedBad prof (slow.pulseBreak + slow.heldMake) = true
      ∧ (0x004 : CondSet) &&& ({ prof with trapMask := 0x004 } : Profile).trapMask ≠ 0 := by decide
theorem witness_GlitchesAreAbsorbed :
    let glitch := { breakLine with intervalTimer := 18 }
    let reopened := { breakLine with reopened := true, threshold := none }
    let make := { trainLine with integrator := 1, intervalTimer := 7 }
    let short := { make with intervalTimer := 6 }
    let absorbed := { callLine with loop := .opened, intervalTimer := 18 }
    let opening := { callLine with main := .suspended, integrator := 1 }
    (scanning glitch).scan.shifting = true ∧ atWork (scanning glitch) = true ∧ glitch.skipSamples = 0
      ∧ (∀ m, m ≠ 3 → ((scanning glitch).line m).main = .outOfService) ∧ glitch.main = .collecting
      ∧ transits .closed absorbed = .makeStart ∧ absorbed.sub = .idle ∧ absorbed.reopened = false
      ∧ min (absorbed.intervalTimer + 1) 65535 < prof.bMin ∧ transits .opened opening = .breakStart ∧ opening.sub = .idle
      ∧ transits .closed glitch = .makeStart ∧ glitch.sub = .brk ∧ glitch.reopened = false
      ∧ min (glitch.intervalTimer + 1) 65535 < prof.bMin
      ∧ transits .closed reopened = .makeStart ∧ reopened.reopened = true ∧ min (reopened.intervalTimer + 1) 65535 ≤ prof.bMax
      ∧ transits .opened make = .breakStart ∧ make.sub = .make ∧ prof.mMin ≤ min (make.intervalTimer + 1) 65535
      ∧ transits .opened short = .breakStart ∧ min (short.intervalTimer + 1) 65535 < prof.mMin := by decide
theorem witness_LongBreaksAndFlashes :
    let long := { breakLine with intervalTimer := 100 }
    let alone := { callLine with loop := .opened, intervalTimer := 400 }
    let flash := { callLine with loop := .opened, intervalTimer := 399, main := .through }
    let trapping := { prof with trapMask := 0x050 }
    let idling := { callLine with main := .suspended, loop := .opened, intervalTimer := 19 }
    transits .closed long = .makeStart ∧ long.sub = .brk ∧ prof.bMin ≤ 101 ∧ prof.bMax < min (long.intervalTimer + 1) 65535
      ∧ transits .closed alone = .makeStart ∧ alone.sub = .idle ∧ prof.fMax < min (alone.intervalTimer + 1) 65535
      ∧ transits .closed flash = .makeStart ∧ flash.sub = .idle ∧ flash.skipSamples = 0
      ∧ long.store.length ≤ 32 ∧ prof.flashMapping ≠ none ∧ (keyed 32 flash).store.length = 32 ∧ transits .closed (keyed 32 flash) = .makeStart
      ∧ (0x040 : CondSet) &&& trapping.trapMask ≠ 0 ∧ (0x040 : CondSet) &&& prof.trapMask = 0
      ∧ (conditionLine trapping .closed (keyed 32 { flash with adopted := some trapping })).2 = .makeStart
      ∧ transits .closed idling = .makeStart ∧ idling.main = .suspended ∧ min (idling.intervalTimer + 1) 65535 = prof.bMin
      ∧ prof.bMax < min (flash.intervalTimer + 1) 65535 ∧ min (flash.intervalTimer + 1) 65535 ≤ prof.fMax
      ∧ prof.flashRestart = true ∧ (scanning flash).scan.shifting = true
      ∧ (∀ m, m ≠ 3 → ((scanning flash).line m).main = .outOfService) ∧ atWork (scanning flash) = true := by decide
theorem witness_GuardExpiryCollects :
    let s := lineAt { idleLine with main := .seizing, loop := .closed, phaseTimer := 10 }
    s.part.phase = .working ∧ (s.line 3).adopted = some prof ∧ (s.line 3).main = .seizing ∧ (s.line 3).loop = .closed
      ∧ prof.guard ≤ (s.line 3).phaseTimer := by decide
theorem witness_DigitEnds :
    let s := lineAt trainLine
    let full := keyed 32 trainLine
    s.part.phase = .working ∧ (s.line 3).adopted = some prof ∧ (s.line 3).main = .collecting ∧ (s.line 3).sub = .make
      ∧ (s.line 3).threshold = some 250 ∧ 250 ≤ (s.line 3).intervalTimer ∧ (s.line 3).store.length ≤ 32
      ∧ full.store.length = 32 ∧ digitKey prof.numbering 3 = some 3 ∧ digitKey prof.numbering 11 = none
      ∧ (0x008 : CondSet) &&& ({ prof with trapMask := 0x008 } : Profile).trapMask ≠ 0
      ∧ (let e : PlanEntry := ⟨[some 3], some 1, false, .normal⟩
         (evaluate [.valid e] [3]).selected = some (0, e) ∧ e.length = some 1 ∧ (evaluate [.valid e] [3]).blocked = false)
      ∧ (evaluate s.plan.table [3]).live = false ∧ ({ prof with unmatchedAction := .completeNow } : Profile).unmatchedAction
          = .completeNow ∧ prof.unmatchedAction ≠ .completeNow ∧ (evaluate s.plan.table [3]).selected = none
      ∧ 24 ≤ (List.replicate 23 (3 : Key)).length + 1 ∧ (s.line 3).digits.length + 1 < 24 := by decide
theorem witness_CompletionTimerCompletes :
    timedState.part.phase = .working ∧ timedState.scan.tickSampled = true ∧ (timedState.line 3).adopted = some prof
      ∧ (timedState.line 3).main = .collecting ∧ (timedState.line 3).completionTimer = some 50 ∧ prof.tComplete ≤ 50
      ∧ (timedState.line 3).interdigitDue = false ∧ (timedState.line 3).releaseDue = false := by decide
theorem witness_ReleaseEndsTheCall :
    let s := sending { Sender.reset with state := .on } openLine
    s.part.phase = .working ∧ (s.line 3).adopted = some prof ∧ (s.line 3).main = .collecting ∧ (s.line 3).loop = .opened
      ∧ prof.rel ≤ (s.line 3).intervalTimer ∧ (s.line 3).attached = some 2 ∧ (∀ e ∈ s.pool.waitList, e.line = 3) := by decide
theorem witness_FaultBlockAndReturn :
    let s := lineAt faultedLine
    let u := lineAt clearedLine
    let v := lineAt releasedAndFaulted
    s.part.phase = .working ∧ (s.line 3).runTestMet = true ∧ (s.line 3).main.conditioning = true
      ∧ (s.line 3).releaseDue = false ∧ (u.line 3).runTestMet = true ∧ (u.line 3).main = .blocked .fault
      ∧ (v.line 3).runTestMet = true ∧ (v.line 3).releaseDue = true
      ∧ ∃ t, exec (.release 3) v = .next t ∧ (t.line 3).main = .onHook :=
  ⟨rfl, rfl, rfl, by decide, rfl, rfl, rfl, by decide, _, rfl, by decide⟩
theorem witness_AdoptionOfAProfile :
    prof.inService = true ∧ idleLine.main ≠ .outOfService ∧ Line.reset.main = .outOfService := by decide
/-- A profile image whose rounding mode is coded 3, its check word good. -/
def badRounding : List Word := [0x0000C000, 0, 0, 0, 0, 0, 0, 0x40000000]
def badNumbering : List Word := [0x00030000, 0, 0, 0, 0, 0, 0, 0xFFFD0000]
theorem witness_InterdigitThreshold :
    prof.tidMin ≤ prof.tidMax ∧ prof.multiplier ≤ 63 ∧ 1600 ≤ 507904 ∧ halfSum badRounding = 0
      ∧ byteAt badRounding 1 / 64 = 3 ∧ thresholdOf prof 0 = prof.tidMin ∧ thresholdOf prof 507904 = prof.tidMax := by decide
theorem witness_NumberingOfADial : halfSum badNumbering = 0 ∧ byteAt badNumbering 2 % 4 = 3 := by decide
theorem witness_PlanEvaluation : ([1, 7] : List Key) ≠ [] ∧ 8 ≤ (List.replicate 8 (1 : Key)).length := by decide
/-- A line of a call with a key, waiting for nothing yet; all senders FREE. -/
def joiner : State := lineAt (keyed 1 callLine)
/-- The Sender Pool of one line that holds no sender, nothing waiting. -/
theorem alone_pool (l : Line) (h : l.attached = none) : PoolLaws (lineAt l) := by
  have h1 (k : SenderNo) : (base.sender k).state = .free ∧ (base.sender k).line = none := by revert k; decide
  have h2 (n : LineNo) : ((lineAt l).line n).attached = none := by
    by_cases hn : n = 3
    · subst hn; exact h
    · have h3 : (base.line n).attached = none := by clear hn; revert n; decide
      have h4 : (lineAt l).line n = base.line n := by
        unfold lineAt State.setLine State.line
        exact Vector.getElem_set_ne (3 : LineNo).isLt n.isLt fun h5 => hn (Fin.ext h5.symm)
      rw [h4]; exact h3
  refine ⟨fun n k => ?_, fun k => ?_, .nil, .nil, fun e he => (by cases he), .nil⟩
  · rw [h2 n, show (lineAt l).sender k = base.sender k from rfl, (h1 k).2]
    exact ⟨fun h5 => (by cases h5), fun h5 => (by cases h5)⟩
  · exact iff_of_true (h1 k).1 (h1 k).2
theorem joiner_pool : PoolLaws joiner := alone_pool _ rfl
theorem witness_JoiningTestGrants :
    PoolLaws joiner ∧ ArbiterLaw joiner ∧ ((joiner.line 3).main = .collecting ∨ (joiner.line 3).main = .through)
      ∧ (joiner.line 3).store ≠ [] ∧ (joiner.line 3).attached = none ∧ (∀ e ∈ joiner.pool.waitList, e.line ≠ 3)
      ∧ (joiner.sender 0).state = .free ∧ (∀ j : SenderNo, j < 0 → (joiner.sender j).state ≠ .free) :=
  ⟨joiner_pool, .inr rfl, by decide⟩
/-- Every sender busy on a line of 30 to 45, line 60 waiting, line 3 about to join. -/
def crowdLine (n : LineNo) : Line :=
  if n = 3 then keyed 1 callLine
  else if n = 60 then { keyed 1 callLine with main := .through }
  else if 30 ≤ n.val ∧ n.val < 46 then { callLine with attached := some (Fin.ofNat 16 (n.val - 30)) }
  else Line.reset
def crowdSender (k : SenderNo) : Sender := { Sender.reset with state := .paused, line := some (Fin.ofNat 96 (k.val + 30)) }
def crowd : State :=
  { base with
    lines := ⟨⟨allLines.map crowdLine⟩, rfl⟩
    pool := { base.pool with senders := ⟨⟨allSenders.map crowdSender⟩, rfl⟩, waitList := [⟨60, 4⟩], joins := 9 } }
theorem crowd_line (n : LineNo) : crowd.line n = crowdLine n := by revert n; decide
theorem crowd_sender (k : SenderNo) : crowd.sender k = crowdSender k := by revert k; decide
theorem crowd_pool : PoolLaws crowd := by
  refine ⟨fun n k => ?_, by decide⟩
  rw [crowd_line, crowd_sender]
  revert n k
  decide
/-- Every line but n that should wait is in the wait list. -/
def othersWait (n : LineNo) (s : State) : Prop :=
  ∀ m, m ≠ n → (s.line m).main = .collecting ∨ (s.line m).main = .through → (s.line m).store ≠ [] →
    (s.line m).attached = none → ∃ e ∈ s.pool.waitList, e.line = m
theorem witness_JoiningTestOthersWait : othersWait 3 joiner ∧ othersWait 3 crowd := by
  refine ⟨fun m hm hc => ?_, fun m => ?_⟩
  · exact absurd hc (by revert m; decide)
  · rw [crowd_line]; revert m; decide
theorem witness_JoiningTestWaits :
    PoolLaws crowd ∧ ArbiterLaw crowd ∧ (crowd.line 3).main = .collecting ∧ (crowd.line 3).store ≠ []
      ∧ (crowd.line 3).attached = none ∧ (∀ e ∈ crowd.pool.waitList, e.line ≠ 3)
      ∧ (∀ k, (crowd.sender k).state ≠ .free) ∧ crowd.pool.waitList ≠ [] :=
  ⟨crowd_pool, .inl (by decide), by decide⟩
/-- Every sender busy, that of line 30 in a gap that expires and the line's break at Rel, line 31 at a fault block; lines 60
and 61 wait, 60 at the expiry of its completion timer and 61 at the end of a digit; the plan raises both to URGENT. -/
def bustleLine (n : LineNo) : Line :=
  if n = 30 then { keyed 1 callLine with loop := .opened, intervalTimer := 800, attached := some 0 }
  else if n = 31 then { keyed 1 callLine with runTestMet := true, attached := some 1 }
  else if n = 60 then keyed 1 timedLine
  else if n = 61 then keyed 1 trainLine
  else crowdLine n
def bustleSender (k : SenderNo) : Sender :=
  if k = 0 then { Sender.reset with state := .gap, timer := 140, line := some 30 } else crowdSender k
def bustle : State :=
  { base with
    lines := ⟨⟨allLines.map bustleLine⟩, rfl⟩
    scan := { base.scan with tickSampled := true }
    plan := { base.plan with table :=
      [.valid ⟨[some 1], none, false, .urgent⟩, .valid ⟨[some 3], none, false, .urgent⟩] }
    pool := { senders := ⟨⟨allSenders.map bustleSender⟩, rfl⟩, waitList := [⟨60, 4⟩, ⟨61, 5⟩], joins := 9 } }
theorem bustle_line (n : LineNo) : bustle.line n = bustleLine n := by revert n; decide
theorem bustle_sender (k : SenderNo) : bustle.sender k = bustleSender k := by revert k; decide
theorem bustle_pool : PoolLaws bustle := by
  refine ⟨fun n k => ?_, by decide⟩
  rw [bustle_line, bustle_sender]
  revert n k
  decide
theorem bustle_arbiter : ArbiterLaw bustle := .inl (by decide)
/-- A sender is freed while lines wait: at a gap expiry, a release, a fault block and a BLOCK request. -/
theorem witness_FreedGoesOn :
    PoolLaws bustle ∧ ArbiterLaw bustle ∧ (bustle.line 30).attached = some 0 ∧ (bustle.line 31).attached = some 1
      ∧ bustle.pool.waitList = ⟨60, 4⟩ :: [⟨61, 5⟩] ∧ bustle.part.phase = .working
      ∧ (bustle.sender 0).line = some 30 ∧ (bustle.sender 0).state = .gap ∧ (bustle.line 30).adopted = some prof
      ∧ prof.tOff ≤ (bustle.sender 0).timer ∧ (bustle.sender 0).resendMark = false ∧ (bustle.line 30).store.drop 1 = []
      ∧ (bustle.line 30).main = .collecting ∧ (bustle.line 30).loop = .opened ∧ prof.rel ≤ (bustle.line 30).intervalTimer
      ∧ (bustle.line 31).runTestMet = true ∧ (bustle.line 31).main.inCall = true ∧ (bustle.line 31).releaseDue = false
      ∧ (bustle.line 30).requestEdition ≠ some 1 :=
  ⟨bustle_pool, bustle_arbiter, by decide⟩
/-- R130, R131: line 60, the head, is granted sender 0 at the boundary; line 61 then stands at the head. -/
theorem test_gap_grants_head : answers (exec (.gapExpiry 0) bustle)
    (fun t => (t.line 60).attached == some 0 && (t.line 61).attached == none && t.pool.waitList == [⟨61, 5⟩]) = true := by
  decide
/-- A class raise of a waiting line: at a digit end, at the completion timer's expiry and at END_NUMBER. -/
theorem witness_GoesOnWaiting :
    PoolLaws bustle ∧ ArbiterLaw bustle ∧ bustle.part.phase = .working ∧ bustle.scan.tickSampled = true
      ∧ ⟨60, 4⟩ ∈ bustle.pool.waitList ∧ ⟨61, 5⟩ ∈ bustle.pool.waitList
      ∧ (bustle.line 61).main = .collecting ∧ (bustle.line 61).interdigitDue = true ∧ (bustle.line 61).store.length ≤ 32
      ∧ (bustle.line 61).adopted = some prof ∧ (bustle.line 61).cls = .normal
      ∧ raisedClass (evaluate bustle.plan.table [3]) (bustle.line 61) = .urgent
      ∧ (bustle.line 60).main = .collecting ∧ (bustle.line 60).completionDue = true ∧ (bustle.line 60).digits ≠ []
      ∧ (bustle.line 60).adopted = some prof ∧ (bustle.line 60).cls = .normal
      ∧ raisedClass (evaluate bustle.plan.table (bustle.line 60).digits) (bustle.line 60) = .urgent
      ∧ (bustle.line 60).requestEdition ≠ some 1
      ∧ numberSet prof .timeout (evaluate bustle.plan.table (bustle.line 60).digits) (bustle.line 60) &&& prof.trapMask = 0
      ∧ numberSet prof .unmatched (evaluate [] []) callLine &&& ({ prof with trapMask := 0x100 } : Profile).trapMask ≠ 0 :=
  ⟨bustle_pool, bustle_arbiter, by decide⟩
/-- R129: line 61, raised by its digit, passes the NORMAL line 60 with its joining time kept. -/
theorem test_raise_moves : answers (exec (.interdigitExpiry 61) bustle)
    (fun t => t.pool.waitList == [⟨61, 5⟩, ⟨60, 4⟩] && (t.line 61).cls == .urgent) = true := by decide
theorem witness_JoinsWithKeys :
    PoolLaws (lineAt trainLine) ∧ ArbiterLaw (lineAt trainLine) ∧ PoolLaws (lineAt callLine)
      ∧ PoolLaws (lineAt (keyed 1 (suspended .through))) ∧ PoolLaws (lineAt (keyed 1 (suspended .collecting)))
      ∧ PoolLaws (scanning { callLine with loop := .opened, intervalTimer := 399 })
      ∧ (∀ e ∈ (lineAt callLine).pool.waitList, e.line ≠ 3) ∧ ((lineAt callLine).sender 0).state = .free :=
  ⟨alone_pool _ rfl, .inr rfl, alone_pool _ rfl, alone_pool _ rfl, alone_pool _ rfl,
    alone_pool { callLine with loop := .opened, intervalTimer := 399 } rfl, by decide, by decide⟩
theorem witness_BurstsBeginAndExpire :
    let s := grantedState
    let u := burstState
    s.part.phase = .working ∧ (s.sender 2).line = some 3 ∧ (s.sender 2).state = .on ∧ (s.sender 2).begun = false
      ∧ (inFrame0 s).clk.state = .locked ∧ (inFrame0 s).clk.frame = 0 ∧ s.clk.state ≠ .locked ∧ (s.line 3).attached = some 2
      ∧ (∀ m : LineNo, (inFrame0 s).hwy.xtxd[m] ≠ none) ∧ (∀ m : LineNo, (losingFrame s).hwy.xtxd[m] = none)
      ∧ (u.line 3).attached = some 2 ∧ (s.sender 2).burstDue = true ∧ (u.sender 2).line = some 3 ∧ (u.sender 2).state = .on
      ∧ (u.line 3).adopted = some prof ∧ (u.sender 2).begun = true ∧ prof.tOn ≤ (u.sender 2).timer := by decide
theorem witness_GapsExpire :
    let s := gapState 1 true
    s.part.phase = .working ∧ (s.sender 2).line = some 3 ∧ (s.line 3).adopted = some prof ∧ (s.sender 2).state = .gap
      ∧ (inFrame0 s).clk.state = .locked ∧ (inFrame0 s).clk.frame = 0 ∧ s.clk.state ≠ .locked ∧ (s.line 3).attached = some 2
      ∧ (∀ m : LineNo, (inFrame0 s).hwy.xtxd[m] ≠ none) ∧ (∀ m : LineNo, (losingFrame s).hwy.xtxd[m] = none)
      ∧ ¬ Muted prof (s.line 3) ∧ Muted prof { s.line 3 with sub := .brk }
      ∧ prof.tOff ≤ (s.sender 2).timer ∧ (s.sender 2).resendMark = true ∧ ((gapState 2 false).line 3).store.drop 1 ≠ []
      ∧ ((gapState 2 false).sender 2).resendMark = false ∧ ((gapState 1 false).line 3).store.drop 1 = []
      ∧ (∀ e ∈ (gapState 1 false).pool.waitList, e.line ≠ 3) ∧ (gapState 1 false).pool.waitList = [] := by decide
theorem witness_GapsExpireInPaused :
    ((loseReference (losingFrame (gapState 1 false))).sender 2).state = .paused := by decide
theorem witness_LineSlotsEnterTheDelay :
    base.part.phase = .working ∧ base.hwy.slot = (0 : LineNo).val ∧ base.hwy.slot ≠ (95 : LineNo).val := by decide
theorem witness_DrivenSlotsAndTones :
    let s := sending { Sender.reset with state := .on, begun := true, timer := 199 } callLine
    Sounds s (s.sender 2) ∧ ¬ Sounds (gapState 1 false) ((gapState 1 false).sender 2)
      ∧ (s.line 3).attached = some 2 ∧ (s.line 3).adopted = some prof ∧ (s.sender 2).state = .on ∧ (s.sender 2).begun = true
      ∧ (s.sender 2).timer < prof.tOn ∧ prof.tOn ≤ (burstState.sender 2).timer ∧ ((gapState 1 false).sender 2).state ≠ .on
      ∧ (joiner.line 3).attached = none ∧ (joiner.line 3).adopted = some prof
      ∧ (base.line 3).attached = none ∧ (base.line 3).adopted = none :=
  ⟨⟨rfl, rfl, 3, prof, by decide⟩, fun h => absurd h.1 (by decide), by decide⟩
theorem witness_SequencesStartAndAreGranted :
    let s := queued 95
    s.part.phase = .working ∧ s.arc.port = .running ∧ s.arc.inFlight = none ∧ s.arc.queue = .visit :: [.journal]
      ∧ s.arc.sweep.val = (95 : LineNo).val ∧ (queued 96).arc.sweep.val = 96
      ∧ ((porting .starting (some (Sequence.begin .starting 0x1000))).arc.inFlight.map (·.granted)) = some false := by decide
theorem witness_ReadsOfASequence :
    let q := seqAt .starting .reading [0, 0, 0]
    let s := porting .starting (some q)
    s.part.phase = .working ∧ s.arc.inFlight = some q ∧ q.granted = true ∧ q.stage = .reading
      ∧ (q.got ++ [0]).length = 4 ∧ s.arc.haltTaken = false
      ∧ ({ s with arc := { s.arc with haltTaken := true } } : State).arc.haltTaken = true
      ∧ (seqAt .headerVisit .planReading [1, 0, 0]).stage = .planReading := by decide
theorem witness_WritesOfASequence :
    let q := { seqAt .journal .writing [] with out := some [0x11223344], count := 0 }
    writing.part.phase = .working ∧ writing.arc.inFlight = some q ∧ q.granted = true ∧ q.stage = .writing
      ∧ q.kind = .journal ∧ 4 * q.count ≤ q.written ∧ ({ q with count := 1 } : Sequence).written < 4 * 1
      ∧ (seqAt (.lineVisit 95) .writing []).kind = .lineVisit 95 := by decide
theorem witness_BusFaults :
    let q := { seqAt .journal .writing [] with out := some [0x11223344], count := 0 }
    writing.part.phase = .working ∧ writing.arc.inFlight = some q ∧ q.stage = .writing ∧ q.granted = true
      ∧ 2 ≤ ({ writing with arc := { writing.arc with busWait := 2 } } : State).arc.busWait ∧ writing.arc.busWait < 2 := by
  decide
theorem witness_LineTakeUpProfile :
    let q := seqAt (.lineVisit 3) .readDone [0x00000100, 0]
    let s := visited.setLine 3 { idleLine with requestEdition := some 1 }
    s.part.phase = .working ∧ s.arc.inFlight = some q ∧ q.kind = .lineVisit 3 ∧ q.stage = .readDone
      ∧ (s.line 3).requestEdition = some (byteOf (q.got.getD 0 0) 1) ∧ (s.line 3).profileEdition ≠ some 0
      ∧ (visited.line 3).profileEdition = some 0 ∧ (List.replicate 8 (0 : Word)).length = 8
      ∧ (let l := { keyed 32 trainLine with pulses := 15, estimate := 2 ^ 19 - 1 }
         l.profileOutcome.field < 32 ∧ l.pulses < 16 ∧ l.digits.length < 32 ∧ l.estimate < 2 ^ 19 ∧ l.store.length < 64
          ∧ (⟨0, 1999⟩ : DevTime).tick < 2048) := by decide
theorem witness_LineTakeUpRequest :
    let q := seqAt (.lineVisit 3) .readDone [0x00000100, 0]
    visited.part.phase = .working ∧ visited.arc.inFlight = some q ∧ q.kind = .lineVisit 3 ∧ q.stage = .readDone := by decide
theorem witness_VisitsComplete :
    reported.part.phase = .working ∧ reported.arc.inFlight = some (seqAt (.lineVisit 3) .writeDone [])
      ∧ (seqAt .headerVisit .writeDone []).stage = .writeDone ∧ reported.arc.port ≠ .halting
      ∧ (porting .halting (some (seqAt .headerVisit .writeDone []))).arc.port = .halting := by decide
theorem witness_HeaderTakeUpHandsOver :
    let q := seqAt .headerVisit .readDone [32, 0, 0x2003, 0x0700, 500000]
    let s := porting .running (some q)
    s.part.phase = .working ∧ s.arc.inFlight = some q ∧ q.kind = .headerVisit ∧ q.stage = .readDone
      ∧ s.arc.loadIgnored < 128 ∧ s.now.tick < 2048 ∧ s.arc.planTakenUp ≠ some (byteOf (q.got.getD 3 0) 0)
      ∧ ({ s with arc := { s.arc with planTakenUp := some 0 } } : State).arc.planTakenUp
          = some (byteOf (q.got.getD 3 0) 0) := by decide
theorem witness_PlanLoadOutcomes :
    let q := seqAt .headerVisit .planReadDone [0, 0]
    planImage.part.phase = .working ∧ planImage.arc.inFlight = some q ∧ q.kind = .headerVisit ∧ q.stage = .planReadDone
      ∧ q.got.length = 2 * min ((q.got.getD 0 0).toNat % 256) 64 + 2 ∧ halfSum q.got = 0 ∧ halfSum [0, 1] ≠ 0 := by decide
theorem witness_HeaderChecks :
    let s := header 0x00026001
    let q := seqAt .starting .readDone [0x00026001, 0x4000, 32, 200]
    s.part.phase = .working ∧ s.arc.inFlight = some q ∧ q.kind = .starting ∧ q.stage = .readDone ∧ s.arc.port = .starting
      ∧ s.arc.haltTaken = false ∧ headerGood q.got = true ∧ headerGood [0x00076001, 0x4000, 32, 200] = false
      ∧ headerGood [0x00026001, 0, 0, 256] = false ∧ headerGood [0x00026001, 0, 0, 255] = true := by decide
theorem witness_QuietRequestRows :
    (base.line 3).requestEdition ≠ some 1 ∧ base.part.phase = .working ∧ (base.line 3).main = .outOfService
      ∧ ((lineAt { idleLine with requestEdition := some 1 }).line 3).requestEdition = some 1
      ∧ ((lineAt idleLine).line 3).main ≠ .outOfService ∧ ((lineAt idleLine).line 3).adopted = some prof := by decide
theorem witness_InjectRequest :
    let s := lineAt (keyed 31 callLine)
    s.part.phase = .working ∧ (s.line 3).requestEdition ≠ some 1 ∧ (s.line 3).main = .collecting
      ∧ ¬ (32 < (s.line 3).store.length + 1) ∧ 32 < (s.line 3).store.length + 2 := by decide
theorem witness_FlushRequest :
    let s := lineAt (keyed 2 callLine)
    s.part.phase = .working ∧ (s.line 3).requestEdition ≠ some 1 ∧ (s.line 3).main = .collecting ∧ (s.line 3).store ≠ []
      ∧ (s.line 3).attached = none ∧ ((gapState 4 false).line 3).attached = some 2
      ∧ ((lineAt callLine).line 3).store = [] ∧ ((lineAt idleLine).line 3).main = .onHook := by decide
theorem witness_EndNumberAndResumeRequests :
    let s := lineAt timedLine
    s.part.phase = .working ∧ (s.line 3).requestEdition ≠ some 1 ∧ (s.line 3).main = .collecting ∧ (s.line 3).digits ≠ []
      ∧ (s.line 3).adopted = some prof
      ∧ ((lineAt (suspended .collecting)).line 3).resumeTarget = some .collecting
      ∧ ((lineAt (suspended .through)).line 3).resumeTarget = some .through
      ∧ ((lineAt (suspended .through)).line 3).main = .suspended := by decide
theorem witness_BlockAndUnblockRequests :
    let s := gapState 2 false
    s.part.phase = .working ∧ (s.line 3).requestEdition ≠ some 1 ∧ (s.line 3).main = .collecting
      ∧ ((lineAt idleLine).line 3).main = .onHook ∧ ((lineAt { idleLine with main := .blocked .admin }).line 3).main
          = .blocked .admin ∧ (base.line 3).main = .outOfService ∧ (scanning idleLine).scan.shifting = true := by decide
theorem witness_ReleaseReadAndHoldOff :
    let q := { seqAt .journal .readDone [0] with count := 0 }
    let s := journalAt .readDone 0 32
    s.part.phase = .working ∧ s.arc.inFlight = some q ∧ q.kind = .journal ∧ q.stage = .readDone
      ∧ 0 < min (min 63 s.jnl.staging.length) 8 ∧ (journalAt .readDone 0 0).jnl.staging = []
      ∧ (journalAt .readDone 0 0).jnl.publish = false
      ∧ ({ queued 0 with jnl := { base.jnl with holdOff := true, holdOffDue := true } } : State).jnl.holdOffDue = true
      ∧ 65535 < 65536 ∧ (⟨0, 1999⟩ : DevTime).tick < 2048 ∧ (ProfileOutcome.rejectedField 17).field < 32 := by decide
theorem witness_JournalCommits :
    let q := { seqAt .journal .writeDone [0] with count := 8 }
    let s := journalAt .writeDone 8 32
    s.part.phase = .working ∧ s.arc.inFlight = some q ∧ q.kind = .journal ∧ q.stage = .writeDone
      ∧ 0 < q.count ∧ 32 ≤ s.jnl.staging.length ∧ 0 < s.jnl.gap ∧ s.arc.port ≠ .halting
      ∧ ({ s with arc := { s.arc with port := .halting } } : State).arc.port = .halting
      ∧ (s.jnl.commit q.count s.now).staging ≠ [] ∧ PortRequest.journal ∉ s.arc.queue := by decide
theorem witness_RegisterWindowWrites :
    base.part.phase = .working ∧ base.arc.port = .idle ∧ State.reset.part.phase ≠ .working
      ∧ (queued 0).arc.port = .running ∧ (queued 0).arc.inFlight = none ∧ writing.arc.inFlight ≠ none
      ∧ (header 0).arc.port = .starting ∧ (porting .faulted none).arc.port = .faulted
      ∧ (porting .halting none).arc.port = .halting ∧ [0x10, 0x14, 0x18, 0x1C].map (fun a : Word => a.toNat / 4 % 4) = [0, 1, 2, 3] := by
  decide

/-- A call in progress with a command waiting: the state the invariants' witnesses stand on. -/
def busy : State := { joiner with pending := [.frameStart, .run] }
theorem busy_steps : ∃ t, step busy = .next t := ⟨_, rfl⟩
theorem busy_lines (n : LineNo) : busy.line n = if n = 3 then keyed 1 callLine else Line.reset := by
  by_cases h : n = 3
  · subst h; rfl
  · revert n; decide
theorem witness_BufferLawsKept : BufferLaws busy ∧ ∃ t, step busy = .next t :=
  ⟨⟨by decide, by decide, by decide, fun n => by rw [busy_lines]; split <;> decide⟩, busy_steps⟩
theorem witness_PortLawsKept : PortLaws busy ∧ ∃ t, step busy = .next t :=
  ⟨by unfold PortLaws; and_intros <;> decide, busy_steps⟩
theorem witness_AlignmentAndMemoryKept : AlignmentLaws busy ∧ Memory.wf busy.mem ∧ ∃ t, step busy = .next t :=
  ⟨⟨by decide, by decide, by decide, fun q h => by cases h⟩, by decide, busy_steps⟩
theorem witness_TrainLawsKept : TrainLaws busy ∧ ∃ t, step busy = .next t :=
  ⟨fun n => by rw [busy_lines]; split <;> decide, busy_steps⟩
theorem witness_ProfileLawsKept : ProfileLaws busy ∧ ∃ t, step busy = .next t := by
  refine ⟨fun n => ?_, busy_steps⟩
  rw [busy_lines]
  split
  · refine ⟨fun h => (by cases h), fun p h => ?_, fun p h => (by cases h), by decide⟩
    obtain rfl : prof = p := Option.some.inj h
    unfold ProfileSound
    decide
  · exact ⟨by decide, fun p h => (by cases h), fun p h => (by cases h), by decide⟩
theorem witness_CallAndPoolLawsKept : CallLaws busy ∧ PoolLaws busy ∧ ∃ t, step busy = .next t :=
  ⟨fun n => by rw [busy_lines]; split <;> decide, joiner_pool, busy_steps⟩
/-- The same call, its line in the wait list. -/
def patient : State := { busy with pool := { busy.pool with waitList := [⟨3, 0⟩], joins := 1 } }
theorem patient_lines (n : LineNo) : patient.line n = if n = 3 then keyed 1 callLine else Line.reset := busy_lines n
theorem patient_pool : PoolLaws patient := by
  refine ⟨fun n k => ?_, by decide⟩
  have h1 : (patient.sender k).line = none := by revert k; decide
  have h2 : (patient.line n).attached = none := by revert n; decide
  simp [h1, h2]
theorem witness_WaitLawKept : CallLaws patient ∧ PoolLaws patient ∧ WaitLaw patient ∧ ∃ t, step patient = .next t := by
  refine ⟨fun n => by rw [patient_lines]; split <;> decide, patient_pool, fun n _ hs _ => ?_, _, rfl⟩
  rw [patient_lines] at hs
  split at hs
  · rename_i h; exact ⟨⟨3, 0⟩, by decide, h.symm⟩
  · exact absurd rfl hs
theorem witness_ArbiterLawKept : ArbiterLaw busy ∧ ∃ t, step busy = .next t := ⟨.inr rfl, busy_steps⟩
theorem witness_ClockAndHighwayLawsKept : ClockLaws busy ∧ HighwayLaws busy ∧ ∃ t, step busy = .next t :=
  ⟨by unfold ClockLaws; and_intros <;> decide, by unfold HighwayLaws; decide, busy_steps⟩

end Sys2Proof.Tests
end

section
/-! SUPPORT. What one event of a dialling line can do, said once: the loop conditioning and the profiles stay, the estimate
stays within the adopted profile's limits, and the main state is kept or lies in SEIZING or a call. -/

namespace Sys2Proof.Machine

/-! ### The law of profiles, line by line -/

/-- The estimate lies within the limits of a profile (R66, R74). -/
def Profile.bounds (p : Profile) (estimate : Nat) : Prop := 16 * p.pLo ≤ estimate ∧ estimate ≤ 16 * p.pHi

/-- What ProfileLaws says of one line record. -/
def Line.ProfileOk (l : Line) : Prop :=
  (l.adopted = none → l.main = .outOfService ∧ l.integrator = 0 ∧ l.estimate = 0)
    ∧ (∀ p, l.adopted = some p →
        ProfileSound p ∧ l.integrator ≤ p.depth ∧ 16 * p.pLo ≤ l.estimate ∧ l.estimate ≤ 16 * p.pHi)
    ∧ (∀ p, l.pendingProfile = some p → ProfileSound p ∧ (l.main = .seizing ∨ l.main.inCall = true))
    ∧ (l.pendingProfile ≠ none ↔ l.profileOutcome = .deferred)

/-- The law is that of each line record. -/
theorem profileLaws_iff (s : State) : ProfileLaws s ↔ ∀ n, (s.line n).ProfileOk := Iff.rfl

/-- The attached-sender field does not enter the law. -/
theorem Line.ProfileOk.sameButSender {l l' : Line} (h : l.ProfileOk) (hs : SameButSender l l') : l'.ProfileOk := by
  rw [hs]
  exact h

theorem ProfileLaws.of_lines {s t : State} (h : ProfileLaws s) (hl : t.lines = s.lines) : ProfileLaws t := fun n => by
  simpa [State.line, hl] using h n

theorem ProfileLaws.of_pool {s t : State} (h : ProfileLaws s) (hl : AllLinesSameButSenders s t) : ProfileLaws t :=
  fun n => Line.ProfileOk.sameButSender (h n) (hl n)

/-- An event of line n keeps the law when line n meets it afterwards. -/
theorem ProfileLaws.of_line {n : LineNo} {s t : State} (h : ProfileLaws s) (ho : OtherLinesSameButSenders n s t)
    (hn : (t.line n).ProfileOk) : ProfileLaws t := fun m => by
  by_cases hm : m = n
  · exact hm ▸ hn
  · exact Line.ProfileOk.sameButSender (h m) (ho m hm)

theorem ProfileLaws.setLine {n : LineNo} {s : State} {l : Line} (h : ProfileLaws s) (hl : l.ProfileOk) :
    ProfileLaws (s.setLine n l) := h.of_line (lineEvent_setLine n s l).2 (by simpa using hl)

/-! ### The estimate (R71 to R74) -/

/-- A correction goes no further than the difference, and on its side (R72). -/
theorem correction_within {gain : Nat} (hg : 1 ≤ gain) (delta : Int) :
    (0 ≤ delta → 0 ≤ correction gain delta ∧ correction gain delta ≤ delta)
      ∧ (delta ≤ 0 → delta ≤ correction gain delta ∧ correction gain delta ≤ 0) := by
  obtain ⟨g, rfl⟩ : ∃ g, gain = g + 1 := ⟨gain - 1, by omega⟩
  have hq : (delta.natAbs + 2 ^ g) / 2 ^ (g + 1) ≤ delta.natAbs := by
    have hpos : 1 ≤ 2 ^ g := Nat.one_le_two_pow
    rw [Nat.le_iff_lt_add_one, Nat.div_lt_iff_lt_mul (by positivity), pow_succ]
    nlinarith [Nat.zero_le (delta.natAbs * 2 ^ g)]
  simp only [correction, Nat.add_sub_cancel]
  generalize (delta.natAbs + 2 ^ g) / 2 ^ (g + 1) = q at hq ⊢
  split <;> omega

theorem clampPeriod_bounds {p : Profile} (h : p.pLo ≤ p.pHi) (period : Nat) :
    p.pLo ≤ clampPeriod p period ∧ clampPeriod p period ≤ p.pHi := by
  unfold clampPeriod
  split <;> omega

/-- A completed pulse keeps the estimate within the limits of a sound profile (R74). -/
theorem track_bounds {p : Profile} (hp : ProfileSound p) (period : Nat) {estimate : Nat} (he : p.bounds estimate) :
    p.bounds (track p period estimate) := by
  obtain ⟨-, -, -, -, hlo, hhi, -, -, -, -, -, -, -, -, -, -, hg, -⟩ := hp
  obtain ⟨h1, h2⟩ := clampPeriod_bounds (hlo.trans hhi) period
  obtain ⟨hu, hd⟩ := correction_within hg (16 * (clampPeriod p period : Int) - (estimate : Int))
  unfold Profile.bounds track at *
  omega

/-! ### What an event of a dialling line does to its record -/

/-- A line record after an event that conditions no sample and takes up no profile. -/
structure DialStep (l l' : Line) : Prop where
  integrator : l'.integrator = l.integrator := by rfl
  loop : l'.loop = l.loop := by rfl
  phaseTimer : l'.phaseTimer = l.phaseTimer := by rfl
  faultRun : l'.faultRun = l.faultRun := by rfl
  clearRun : l'.clearRun = l.clearRun := by rfl
  runTestMet : l'.runTestMet = l.runTestMet := by rfl
  adopted : l'.adopted = l.adopted := by rfl
  pending : l'.pendingProfile = l.pendingProfile := by rfl
  outcome : l'.profileOutcome = l.profileOutcome := by rfl
  /-- The estimate stays, or stays within the limits of a sound profile. -/
  estimate : l'.estimate = l.estimate
    ∨ ∃ p, l.adopted = some p ∧ (ProfileSound p → p.bounds l.estimate → p.bounds l'.estimate) := by exact .inl rfl
  /-- The main state stays, or goes to SEIZING or into a call under an adopted profile. -/
  main : l'.main = l.main ∨ l.adopted ≠ none ∧ (l'.main = .seizing ∨ l'.main.inCall = true) := by exact .inl rfl

theorem DialStep.refl (l : Line) : DialStep l l := {}

theorem DialStep.trans {l l' l'' : Line} (h : DialStep l l') (h' : DialStep l' l'') : DialStep l l'' where
  integrator := h'.integrator.trans h.integrator
  loop := h'.loop.trans h.loop
  phaseTimer := h'.phaseTimer.trans h.phaseTimer
  faultRun := h'.faultRun.trans h.faultRun
  clearRun := h'.clearRun.trans h.clearRun
  runTestMet := h'.runTestMet.trans h.runTestMet
  adopted := h'.adopted.trans h.adopted
  pending := h'.pending.trans h.pending
  outcome := h'.outcome.trans h.outcome
  estimate := by
    rcases h.estimate with he | ⟨p, hp, he⟩ <;> rcases h'.estimate with he' | ⟨p', hp', he'⟩
    · exact .inl (he'.trans he)
    · exact .inr ⟨p', h.adopted ▸ hp', he ▸ he'⟩
    · exact .inr ⟨p, hp, he' ▸ he⟩
    · obtain rfl : p' = p := Option.some.inj (hp'.symm.trans (h.adopted.trans hp))
      exact .inr ⟨p', hp, fun hs hb => he' hs (he hs hb)⟩
  main := by
    rcases h'.main with hm' | ⟨ha', hm'⟩
    · rw [hm']; exact h.main
    · exact .inr ⟨h.adopted ▸ ha', hm'⟩

/-- Such an event keeps the law of profiles. -/
theorem Line.ProfileOk.dialStep {l l' : Line} (h : l.ProfileOk) (hd : DialStep l l') : l'.ProfileOk := by
  obtain ⟨hnone, hsome, hpend, hout⟩ := h
  refine ⟨fun ha => ?_, fun p ha => ?_, fun p hp => ?_, by rw [hd.pending, hd.outcome]; exact hout⟩
  · rw [hd.adopted] at ha
    obtain ⟨hm, hi, he⟩ := hnone ha
    refine ⟨?_, hd.integrator.trans hi, ?_⟩
    · rcases hd.main with hm' | ⟨hne, -⟩
      · exact hm'.trans hm
      · exact absurd ha hne
    · rcases hd.estimate with he' | ⟨p, hp, -⟩
      · exact he'.trans he
      · simp [ha] at hp
  · rw [hd.adopted] at ha
    obtain ⟨hs, hi, he⟩ := hsome p ha
    refine ⟨hs, hd.integrator ▸ hi, ?_⟩
    rcases hd.estimate with he' | ⟨p', hp, hb⟩
    · rwa [he']
    · obtain rfl : p' = p := Option.some.inj (hp.symm.trans ha)
      exact hb hs he
  · rw [hd.pending] at hp
    obtain ⟨hs, hm⟩ := hpend p hp
    refine ⟨hs, ?_⟩
    rcases hd.main with hm' | ⟨-, hm'⟩
    · rwa [hm']
    · exact hm'

/-- An event of line n that reaches no other block and no other line but for grants, leaves every sender that is not FREE,
and does to line n what DialStep says. -/
structure DialEvent (n : LineNo) (s t : State) : Prop where
  event : LineEvent n s t
  line : DialStep (s.line n) (t.line n)
  senders : ∀ k, (s.sender k).state ≠ .free → t.sender k = s.sender k

theorem DialEvent.refl (n : LineNo) (s : State) : DialEvent n s s := ⟨.refl n s, .refl _, fun _ _ => rfl⟩

theorem DialEvent.trans {n : LineNo} {s t u : State} (h : DialEvent n s t) (h' : DialEvent n t u) : DialEvent n s u :=
  ⟨h.event.trans h'.event, h.line.trans h'.line, fun k hk => by
    have hs := h.senders k hk
    rw [h'.senders k (hs ▸ hk), hs]⟩

theorem DialEvent.profileLaws {n : LineNo} {s t : State} (h : DialEvent n s t) (hs : ProfileLaws s) : ProfileLaws t :=
  hs.of_line h.event.2 (Line.ProfileOk.dialStep (hs n) h.line)

theorem dialEvent_setLine {n : LineNo} {s : State} {l : Line} (h : DialStep (s.line n) l) : DialEvent n s (s.setLine n l) :=
  ⟨lineEvent_setLine n s l, by simpa using h, fun _ _ => rfl⟩

theorem dialEvent_handOver (n : LineNo) (r : Record) (s : State) : DialEvent n s (handOver r s) :=
  ⟨(handOver_records n r s).1, by rw [line_handOver]; exact .refl _, fun k _ => by simp⟩

theorem dialStep_sameButSender {l l' : Line} (h : SameButSender l l') : DialStep l l' := by
  rw [h]
  exact {}

/-- An operation of the pool that leaves the senders in use is an event of any line. -/
theorem PoolEvent.dialEvent {s t : State} (h : PoolEvent s t) (n : LineNo)
    (hk : ∀ k, (s.sender k).state ≠ .free → t.sender k = s.sender k) : DialEvent n s t :=
  ⟨h.lineEvent n, dialStep_sameButSender (h.2.1 n), hk⟩

/-! ### The pool's part in it -/

/-- A grant reaches a FREE sender alone (R130). -/
theorem grantOne_senders (b : Bool) (s : State) (k : SenderNo) (hk : (s.sender k).state ≠ .free) :
    (grantOne b s).sender k = s.sender k := by
  unfold grantOne
  split
  · rename_i j e rest hj hw
    have hfree : (s.sender j).state = .free := by
      simpa using List.find?_some (show List.find? (fun k => (s.sender k).state == .free) allSenders = some j from hj)
    have hne : k ≠ j := fun h => hk (h ▸ hfree)
    simp [attach, hne]
  · rfl

theorem grantMany_senders (b : Bool) (fuel : Nat) (s : State) (k : SenderNo) (hk : (s.sender k).state ≠ .free) :
    (grantMany b fuel s).sender k = s.sender k := by
  induction fuel generalizing s with
  | zero => rfl
  | succ fuel ih =>
    have h1 := grantOne_senders b s k hk
    rw [grantMany, ih _ (h1 ▸ hk), h1]

theorem arbitrate_senders (b : Bool) (s : State) (k : SenderNo) (hk : (s.sender k).state ≠ .free) :
    (arbitrate b s).sender k = s.sender k := grantMany_senders b 16 s k hk

theorem dialEvent_leaveWait (n m : LineNo) (s : State) : DialEvent n s (leaveWait m s) :=
  (leaveWait_event m s).dialEvent n fun _ _ => rfl

theorem dialEvent_requeue (n m : LineNo) (s : State) : DialEvent n s (requeue m s) :=
  (requeue_event m s).dialEvent n fun k _ => by unfold requeue; split <;> rfl

theorem dialEvent_joinTest (n m : LineNo) (s : State) : DialEvent n s (joinTest m s) :=
  (joinTest_event m s).dialEvent n fun k hk => by
    unfold joinTest
    split
    · exact arbitrate_senders false _ k hk
    · rfl

/-! ### Condition sets, classes, stores and completions -/

theorem dialStep_applySet (b : Bool) (set : CondSet) (l : Line) : DialStep l (l.applySet b set) :=
  {}

/-- A change of the main state that goes into a call under an adopted profile, and of fields that no law of profiles names. -/
theorem dialStep_suspend (target : ResumeTarget) {l : Line} (h : l.adopted ≠ none) : DialStep l (l.suspend target) :=
  { main := .inr ⟨h, .inr rfl⟩ }

/-- Only a line with an adopted profile traps a set (R84). -/
theorem adopted_of_traps {l : Line} {set : CondSet} (h : l.traps set = true) : l.adopted ≠ none := by
  intro ha
  simp [Line.traps, Line.trapped, Line.trapMask, ha] at h

theorem dialEvent_suspendLine {n : LineNo} {s : State} (set : CondSet) (target : ResumeTarget) (prior : MainState)
    (d : DevTime) (h : (s.line n).adopted ≠ none) : DialEvent n s (suspendLine n set target prior d s) :=
  ((dialEvent_setLine (dialStep_suspend target h)).trans (dialEvent_leaveWait n n _)).trans (dialEvent_handOver n _ _)

theorem dialEvent_raiseSet (n : LineNo) (b : Bool) (set : CondSet) (d : DevTime) (s : State) :
    DialEvent n s (raiseSet n b set d s) := by
  have h1 := dialEvent_setLine (n := n) (dialStep_applySet b set (s.line n))
  simp only [raiseSet]
  split
  · rename_i ht
    exact h1.trans (dialEvent_suspendLine _ _ _ _ (by simpa using adopted_of_traps ht))
  · exact h1

theorem dialEvent_offerTo (n : LineNo) (ks : List StoredKey) (s : State) : DialEvent n s (offerTo n ks s) :=
  dialEvent_setLine {}

theorem dialEvent_raiseClass (n : LineNo) (ev : Evaluation) (s : State) : DialEvent n s (raiseClass n ev s) := by
  unfold raiseClass
  split
  · split
    · refine DialEvent.trans (dialEvent_setLine ?_) (dialEvent_requeue n n _)
      exact {}
    · exact .refl n s
  · exact .refl n s

theorem dialStep_enterThrough {l : Line} (h : l.adopted ≠ none) : DialStep l l.enterThrough :=
  { main := .inr ⟨h, .inr rfl⟩ }

theorem DialEvent.adopted_ne_none {n : LineNo} {s t : State} (h : DialEvent n s t) (hs : (s.line n).adopted ≠ none) :
    (t.line n).adopted ≠ none := h.line.adopted ▸ hs

theorem dialEvent_completeNumber {n : LineNo} {s : State} (p : Profile) (o : NumberOutcome) (ev : Evaluation) (d : DevTime)
    (h : (s.line n).adopted ≠ none) : DialEvent n s (completeNumber n p o ev d s) := by
  unfold completeNumber
  extract_lets l ks set s1 s2 s3
  have h1 : DialEvent n s s1 := (dialEvent_offerTo n ks s).trans (dialEvent_handOver n _ _)
  have h2 : DialEvent n s s2 := h1.trans (dialEvent_setLine (dialStep_enterThrough (h1.adopted_ne_none h)))
  have h3 : DialEvent n s s3 := h2.trans (dialEvent_setLine (dialStep_applySet false set _))
  refine DialEvent.trans ?_ (dialEvent_joinTest n n _)
  split
  · exact h3.trans (dialEvent_suspendLine _ _ _ _ (h3.adopted_ne_none h))
  · exact h3

theorem dialEvent_evaluateAfterDigit {n : LineNo} {s : State} (p : Profile) (d : DevTime)
    (h : (s.line n).adopted ≠ none) : DialEvent n s (evaluateAfterDigit n p d s) := by
  have h1 := dialEvent_raiseClass n (evaluate s.plan.table (s.line n).digits) s
  simp only [evaluateAfterDigit]
  split
  · exact h1.trans (dialEvent_completeNumber p _ _ d (h1.adopted_ne_none h))
  · exact h1

theorem dialEvent_expireCompletion {n : LineNo} {s : State} (p : Profile) (d : DevTime)
    (h : (s.line n).adopted ≠ none) : DialEvent n s (expireCompletion n p d s) := by
  have h1 := dialEvent_raiseClass n (evaluate s.plan.table (s.line n).digits) s
  exact h1.trans (dialEvent_completeNumber p _ _ d (h1.adopted_ne_none h))

/-! ### Digits, seizure, makes and breaks -/

theorem dialStep_collect (key : Option Key) (l : Line) : DialStep l (l.collect key) := by
  unfold Line.collect
  split
  · split
    · exact {}
    · exact .refl l
  · exact .refl l

/-- The record of a digit end, before a trapped set suspends the line. -/
theorem dialStep_endDigit (l : Line) (set : CondSet) (key : Option Key) (ks : List StoredKey) :
    DialStep l { (if l.traps set then l.applySet true set
        else { (l.applySet true set).collect key with store := offer ks (l.applySet true set).store }).dropTrain with
      lastCauses := (l.applySet true set).causes } := by
  have hset := dialStep_applySet true set l
  have hlast : ∀ m : Line, DialStep m { m.dropTrain with lastCauses := (l.applySet true set).causes } := fun m =>
    {}
  refine DialStep.trans ?_ (hlast _)
  split
  · exact hset
  · exact (hset.trans (dialStep_collect key _)).trans
      {}

theorem dialEvent_endDigit {n : LineNo} {s : State} (p : Profile) (d : DevTime) (h : (s.line n).adopted ≠ none) :
    DialEvent n s (endDigit n p d s) := by
  unfold endDigit
  extract_lets l key ks full set l1 collected l2 disposition l3 s1
  have h1 : DialEvent n s s1 :=
    (dialEvent_setLine (dialStep_endDigit l set key ks)).trans (dialEvent_handOver n _ _)
  have ha := h1.adopted_ne_none h
  split
  · exact h1.trans (dialEvent_suspendLine _ _ _ _ ha)
  · split
    · exact (h1.trans (dialEvent_evaluateAfterDigit p d ha)).trans (dialEvent_joinTest n n _)
    · exact h1.trans (dialEvent_joinTest n n _)

theorem dialEvent_enterCollecting {n : LineNo} {s : State} (d : DevTime) (h : (s.line n).adopted ≠ none) :
    DialEvent n s (enterCollecting n d s) := by
  refine DialEvent.trans (dialEvent_setLine ?_) (dialEvent_handOver n _ _)
  exact { main := .inr ⟨h, .inr rfl⟩ }

theorem dialEvent_seizeLine {n : LineNo} {s : State} (p : Profile) (d : DevTime) (h : (s.line n).adopted ≠ none) :
    DialEvent n s (seizeLine n p d s) := by
  have h1 : DialEvent n s (s.setLine n { s.line n with main := .seizing, intervalTimer := 0 }) :=
    dialEvent_setLine { main := .inr ⟨h, .inl rfl⟩ }
  simp only [seizeLine]
  split
  · exact h1.trans (dialEvent_enterCollecting d (h1.adopted_ne_none h))
  · exact h1

/-- The fields of the train and the timers enter neither the loop conditioning nor the profiles. -/
theorem dialStep_train (l : Line) (timer held pulses brk : Nat) (sub : SubState) (reopened marginal : Bool)
    (threshold : Option Nat) (causes : CondSet) :
    DialStep l { l with
      intervalTimer := timer, heldMake := held, pulses := pulses, pulseBreak := brk, sub := sub, reopened := reopened
      marginalRaised := marginal, threshold := threshold, causes := causes } :=
  {}

/-- A break that begins, but for the abandoned seizure, is an event of its line. -/
theorem dialEvent_breakStart {n : LineNo} {s : State} (p : Profile) (marg : CondSet) (d : DevTime)
    (h : (s.line n).main ≠ .seizing) : DialEvent n s (breakStart n p marg d s) := by
  have hcand : DialEvent n s (candidateBreak n s) := dialEvent_setLine (dialStep_train _ _ _ _ _ _ _ _ _ _)
  simp only [breakStart, h, if_false]
  split
  · split
    · exact hcand
    · exact hcand
    · split
      · exact (dialEvent_setLine (dialStep_train _ _ _ _ _ _ _ _ _ _)).trans (dialEvent_raiseSet n _ _ d _)
      · exact (dialEvent_setLine (dialStep_train _ _ _ _ _ _ _ _ _ _)).trans (dialEvent_raiseSet n _ _ d _)
  · exact dialEvent_setLine (dialStep_train _ _ _ _ _ _ _ _ _ _)

theorem dialEvent_breakGlitch (n : LineNo) (marg : CondSet) (d : DevTime) (s : State) :
    DialEvent n s (breakGlitch n marg d s) := by
  simp only [breakGlitch]
  split
  · exact dialEvent_setLine (dialStep_train _ _ _ _ _ _ _ _ _ _)
  · exact dialEvent_setLine (dialStep_train _ _ _ _ _ _ _ _ _ _)
  · exact (dialEvent_setLine (dialStep_train _ _ _ _ _ _ _ _ _ _)).trans (dialEvent_raiseSet n _ _ d _)

theorem dialStep_flashRestart {p : Profile} {l : Line} (h : l.adopted ≠ none) : DialStep l (l.flashRestart p) := by
  unfold Line.flashRestart
  split
  · exact { main := .inr ⟨h, .inr rfl⟩ }
  · exact .refl l

theorem dialEvent_takeFlash {n : LineNo} {s : State} (p : Profile) (d : DevTime) (h : (s.line n).adopted ≠ none) :
    DialEvent n s (takeFlash n p d s) := by
  unfold takeFlash
  extract_lets l full set s1 s2
  have h1 : DialEvent n s s1 := dialEvent_setLine
    ((dialStep_train l 0 _ _ _ _ _ _ _ _).trans (dialStep_applySet false set _))
  split
  · have h2 := h1.trans (dialEvent_handOver n (lineRecord n d (.flash .discarded)) s1)
    exact h2.trans (dialEvent_suspendLine _ _ _ _ (h2.adopted_ne_none h))
  · have h2 : DialEvent n s s2 := (h1.trans (dialEvent_setLine (dialStep_flashRestart (h1.adopted_ne_none h)))).trans
      (dialEvent_offerTo n _ _)
    exact (h2.trans (dialEvent_handOver n _ _)).trans (dialEvent_joinTest n n _)

theorem dialEvent_endBreakIdle {n : LineNo} {s : State} (p : Profile) (b : Nat) (d : DevTime)
    (h : (s.line n).adopted ≠ none) : DialEvent n s (endBreakIdle n p b d s) := by
  unfold endBreakIdle
  split
  · exact dialEvent_setLine (dialStep_train _ _ _ _ _ _ _ _ _ _)
  · split
    · exact dialEvent_takeFlash p d h
    · exact (dialEvent_setLine (dialStep_train _ _ _ _ _ _ _ _ _ _)).trans (dialEvent_raiseSet n _ _ d _)

theorem dialEvent_pulseBreakEnd {n : LineNo} {p : Profile} {s : State} (b : Nat) (marg : CondSet) (d : DevTime)
    (h : (s.line n).adopted = some p) : DialEvent n s (pulseBreakEnd n p b marg d s) := by
  refine DialEvent.trans (dialEvent_setLine ?_) (dialEvent_raiseSet n _ _ d _)
  exact { estimate := .inr ⟨p, h, fun hs hb => track_bounds hs _ hb⟩ }

theorem dialEvent_endBreakInTrain {n : LineNo} {p : Profile} {s : State} (b : Nat) (marg : CondSet) (d : DevTime)
    (h : (s.line n).adopted = some p) : DialEvent n s (endBreakInTrain n p b marg d s) := by
  unfold endBreakInTrain
  split
  · exact (dialEvent_setLine (dialStep_train _ _ _ _ _ _ _ _ _ _)).trans (dialEvent_raiseSet n _ _ d _)
  · split
    · exact (dialEvent_setLine (dialStep_train _ _ _ _ _ _ _ _ _ _)).trans (dialEvent_raiseSet n _ _ d _)
    · exact dialEvent_pulseBreakEnd b marg d h

theorem dialEvent_endBreakSuspended (n : LineNo) (p : Profile) (b : Nat) (d : DevTime) (s : State) :
    DialEvent n s (endBreakSuspended n p b d s) := by
  unfold endBreakSuspended
  split
  · exact (dialEvent_setLine (dialStep_train _ _ _ _ _ _ _ _ _ _)).trans (dialEvent_handOver n _ _)
  · exact dialEvent_setLine (dialStep_train _ _ _ _ _ _ _ _ _ _)

/-- A make that begins is an event of its line. -/
theorem dialEvent_makeStart {n : LineNo} {p : Profile} {s : State} (marg : CondSet) (d : DevTime)
    (h : (s.line n).adopted = some p) : DialEvent n s (makeStart n p marg d s) := by
  have ha : (s.line n).adopted ≠ none := by simp [h]
  simp only [makeStart]
  split
  · exact dialEvent_seizeLine p d ha
  · split
    · split
      · exact dialEvent_breakGlitch n marg d s
      · split
        · exact dialEvent_endBreakSuspended n p _ d s
        · split
          · exact dialEvent_endBreakIdle p _ d ha
          · exact dialEvent_endBreakIdle p _ d ha
          · exact dialEvent_endBreakInTrain _ marg d h
    · exact dialEvent_setLine (dialStep_train _ _ _ _ _ _ _ _ _ _)

end Sys2Proof.Machine
end

section
/-! SUPPORT. What becomes of a freed sender and of a line whose call ends: the arbiter's grant to the head of the wait list
(R130, R131, R139), the release effects (R23), and the entry to BLOCKED (R10, R30, R32). -/

namespace Sys2Proof.Machine

/-! ### Lines that do not wait -/

theorem leaveWait_absent (n : LineNo) (s : State) : ∀ e ∈ (leaveWait n s).pool.waitList, e.line ≠ n := by
  simp [leaveWait]

/-- Taking out a line that is not in the list changes nothing. -/
theorem leaveWait_of_absent {n : LineNo} {s : State} (h : ∀ e ∈ s.pool.waitList, e.line ≠ n) : leaveWait n s = s := by
  have hf : (s.pool.waitList.filter fun e => e.line != n) = s.pool.waitList :=
    List.filter_eq_self.2 fun e he => by simpa using h e he
  simp only [leaveWait, hf]

theorem grantOne_waitList (b : Bool) (s : State) : (grantOne b s).pool.waitList ⊆ s.pool.waitList := by
  unfold grantOne
  split
  · exact fun e he => (List.mem_filter.1 he).1
  · exact fun e he => he

/-- A grant leaves a line that does not wait as it was. -/
theorem grantOne_absent (b : Bool) {n : LineNo} {s : State} (h : ∀ e ∈ s.pool.waitList, e.line ≠ n) :
    (grantOne b s).line n = s.line n := by
  unfold grantOne
  split
  · rename_i k e rest hk hw
    have hne : n ≠ e.line := (h e (by simp [hw])).symm
    simp [attach, hne]
  · rfl

theorem grantMany_absent (b : Bool) (fuel : Nat) {n : LineNo} {s : State} (h : ∀ e ∈ s.pool.waitList, e.line ≠ n) :
    (grantMany b fuel s).line n = s.line n ∧ ∀ e ∈ (grantMany b fuel s).pool.waitList, e.line ≠ n := by
  induction fuel generalizing s with
  | zero => exact ⟨rfl, h⟩
  | succ fuel ih =>
    obtain ⟨hl, hw⟩ := ih (s := grantOne b s) fun e he => h e (grantOne_waitList b s he)
    exact ⟨hl.trans (grantOne_absent b h), hw⟩

/-- The arbiter grants to waiting lines alone (R130). -/
theorem arbitrate_absent (b : Bool) {n : LineNo} {s : State} (h : ∀ e ∈ s.pool.waitList, e.line ≠ n) :
    (arbitrate b s).line n = s.line n ∧ ∀ e ∈ (arbitrate b s).pool.waitList, e.line ≠ n := by
  unfold arbitrate
  exact grantMany_absent b 16 h

/-- A line whose sender is cut has none, and still does not wait. -/
theorem cutSender_absent (d : DevTime) {n : LineNo} {s : State} (h : ∀ e ∈ s.pool.waitList, e.line ≠ n) :
    ((cutSender n d s).line n).attached = none ∧ ∀ e ∈ (cutSender n d s).pool.waitList, e.line ≠ n := by
  cases ha : (s.line n).attached with
  | none => simpa [cutSender, ha] using h
  | some k =>
    have hu : ∀ e ∈ (freeSender k n .cut d s).pool.waitList, e.line ≠ n := by simpa [freeSender, detach] using h
    obtain ⟨hl, hw⟩ := arbitrate_absent false hu
    simp only [cutSender, ha]
    exact ⟨by rw [hl]; simp [freeSender, detach], hw⟩

/-! ### A freed sender goes on to the head of the list (R130, R131) -/

/-- What FreedGoesOn says of two states that meet its premises. -/
def GoesToHead (atBoundary : Bool) (k : SenderNo) (n : LineNo) (s t : State) : Prop :=
  t.pool.joins = s.pool.joins ∧ (∀ j, j ≠ k → t.sender j = s.sender j)
    ∧ match s.pool.waitList with
      | [] => (t.sender k).state = .free ∧ (t.sender k).line = none ∧ t.pool.waitList = [] ∧ OtherLinesSame n s t
      | e :: rest => Granted atBoundary k e.line t ∧ t.pool.waitList = rest
          ∧ SameButSender (s.line e.line) (t.line e.line) ∧ ∀ m, m ≠ n → m ≠ e.line → t.line m = s.line m

theorem freedGoesOn_iff (b : Bool) (k : SenderNo) (n : LineNo) (s t : State) : FreedGoesOn b k n s t ↔
    (PoolLaws s → ArbiterLaw s → (s.line n).attached = some k → GoesToHead b k n s t) := Iff.rfl

/-- Line n itself enters the claim nowhere, since it does not wait. -/
theorem GoesToHead.congr {b : Bool} {k : SenderNo} {n : LineNo} {s s' t t' : State} (h : GoesToHead b k n s t)
    (hw : ∀ e ∈ s.pool.waitList, e.line ≠ n) (hp : s'.pool = s.pool) (hl : OtherLinesSame n s s')
    (hp' : t'.pool = t.pool) (hl' : OtherLinesSame n t t') (hc : t'.clk = t.clk) : GoesToHead b k n s' t' := by
  have hx : ∀ j, s'.sender j = s.sender j := fun j => by simp [State.sender, hp]
  have hx' : ∀ j, t'.sender j = t.sender j := fun j => by simp [State.sender, hp']
  unfold GoesToHead at *
  obtain ⟨hj, hs, hm⟩ := h
  refine ⟨by rw [hp, hp', hj], fun j hjk => by rw [hx, hx', hs j hjk], ?_⟩
  cases hlist : s.pool.waitList with
  | nil =>
    simp only [hlist, hp] at hm ⊢
    obtain ⟨h1, h2, h3, h4⟩ := hm
    exact ⟨by rw [hx', h1], by rw [hx', h2], by rw [hp', h3], fun m hmn => by rw [hl' m hmn, h4 m hmn, hl m hmn]⟩
  | cons e rest =>
    have he : e.line ≠ n := hw e (by simp [hlist])
    simp only [hlist, hp] at hm ⊢
    obtain ⟨h1, h2, h3, h4⟩ := hm
    exact ⟨by unfold Granted at *; rwa [hx', hl' _ he, hc], by rw [hp', h2], by rwa [hl _ he, hl' _ he],
      fun m hmn hme => by rw [hl' m hmn, h4 m hmn hme, hl m hmn]⟩

/-- The arbiter after sender k is freed from line n: with no line waiting it grants nothing, and otherwise, no other sender
being FREE, it grants k to the head line (R130, R131). -/
theorem arbitrate_freed (b : Bool) {k : SenderNo} {n : LineNo} (reason : SendReason) (d : DevTime) {s : State}
    (hn : ∀ e ∈ s.pool.waitList, e.line ≠ n) (hd : (s.pool.waitList.map (·.line)).Nodup)
    (hf : (∀ j, j ≠ k → (s.sender j).state ≠ .free) ∨ s.pool.waitList = []) :
    GoesToHead b k n s (arbitrate b (freeSender k n reason d s)) := by
  have hk : (freeSender k n reason d s).sender k = Sender.reset := (freeSender_spec k n reason d s).2.2.2.2
  have ho : ∀ j, j ≠ k → (freeSender k n reason d s).sender j = s.sender j := fun j h => by simp [freeSender, detach, h]
  have hl : ∀ m, m ≠ n → (freeSender k n reason d s).line m = s.line m := fun m h => by simp [freeSender, detach, h]
  have hw : (freeSender k n reason d s).pool.waitList = s.pool.waitList := by simp [freeSender, detach]
  have hj : (freeSender k n reason d s).pool.joins = s.pool.joins := by simp [freeSender, detach]
  unfold GoesToHead
  cases hlist : s.pool.waitList with
  | nil =>
    rw [arbitrate_none_waiting b (hw.trans hlist)]
    exact ⟨hj, ho, by rw [hk]; rfl, by rw [hk]; rfl, hw.trans hlist, hl⟩
  | cons e rest =>
    have hbusy : ∀ j, j ≠ k → ((freeSender k n reason d s).sender j).state ≠ .free := fun j h => by
      rw [ho j h]
      exact (hf.resolve_right (by simp [hlist])) j h
    have he : e.line ≠ n := hn e (by simp [hlist])
    have hrest : (rest.filter fun f => f.line != e.line) = rest := by
      rw [hlist, List.map_cons, List.nodup_cons] at hd
      exact List.filter_eq_self.2 fun f hfr => by
        simpa using fun h : f.line = e.line => hd.1 (List.mem_map.2 ⟨f, hfr, h⟩)
    rw [arbitrate_only b (by rw [hk]; rfl) hbusy (hw.trans hlist)]
    refine ⟨hj, fun j h => by simp [attach, h, ho j h], ⟨?_, ?_, ?_⟩⟩
    · simp [Granted, attach, grantedSender, Sender.reset]
    · simp [attach, leaveWait, State.setLine, hw, hlist, hrest]
    · refine ⟨by simp [attach, SameButSender, hl _ he], fun m hm hme => by simp [attach, hme, hl m hm]⟩

/-- A line that holds a sender does not wait (R126). -/
theorem PoolLaws.absent {n : LineNo} {k : SenderNo} {s : State} (h : PoolLaws s) (ha : (s.line n).attached = some k) :
    ∀ e ∈ s.pool.waitList, e.line ≠ n := by
  obtain ⟨-, -, -, -, hw, -⟩ := h
  rintro e he rfl
  obtain ⟨-, -, hnone, -⟩ := hw e he
  simp [ha] at hnone

/-! ### The release effects -/

/-- The line record after the release effects (R23). -/
theorem releaseEffects_line (n : LineNo) (m : MainState) (d : DevTime) (s : State) :
    (releaseEffects n m d s).line n = releasedLine m (s.line n) := by
  obtain ⟨-, hs⟩ := releaseEffects_spec n m d s
  have ha : ((releaseEffects n m d s).line n).attached = none := (cutSender_absent d (leaveWait_absent n _)).1
  rw [hs, ha]
  rfl

/-- A line that leaves its call does not wait. -/
theorem releaseEffects_absent (n : LineNo) (m : MainState) (d : DevTime) (s : State) :
    ∀ e ∈ (releaseEffects n m d s).pool.waitList, e.line ≠ n := (cutSender_absent d (leaveWait_absent n _)).2

/-- With no sender attached, the release effects take the line out of the wait list and reach no other line (R128). -/
theorem releaseEffects_unattached {n : LineNo} (m : MainState) (d : DevTime) {s : State} (h : (s.line n).attached = none) :
    LeavesTheList n s (releaseEffects n m d s) ∧ OtherLinesSame n s (releaseEffects n m d s) := by
  have hr : releaseEffects n m d s = leaveWait n (s.setLine n ((s.line n).releaseTo m)) := by
    simp [releaseEffects, cutSender, Line.releaseTo, Line.dropTrain, h]
  rw [hr]
  exact ⟨rfl, fun m hm => by simp [hm]⟩

/-- The sender that the release effects cut goes on to the head of the list (R130, R139). -/
theorem releaseEffects_freed {n : LineNo} {k : SenderNo} (m : MainState) (d : DevTime) {s : State}
    (hn : ∀ e ∈ s.pool.waitList, e.line ≠ n) (hd : (s.pool.waitList.map (·.line)).Nodup) (hf : ArbiterLaw s)
    (ha : (s.line n).attached = some k) : GoesToHead false k n s (releaseEffects n m d s) := by
  have hr : releaseEffects n m d s = arbitrate false (freeSender k n .cut d (s.setLine n ((s.line n).releaseTo m))) := by
    rw [releaseEffects, leaveWait_of_absent (by simpa using hn)]
    simp [cutSender, Line.releaseTo, Line.dropTrain, ha]
  rw [hr]
  refine (arbitrate_freed (s := s.setLine n ((s.line n).releaseTo m)) false .cut d (by simpa using hn) (by simpa using hd)
    ?_).congr (by simpa using hn) rfl (fun m hm => by simp [hm]) rfl (fun _ _ => rfl) rfl
  exact hf.imp_left fun h j _ => h j

/-! ### Entry to BLOCKED (R10, R30, R32) -/

@[simp] theorem restart_eq (l : Line) : l.restart = restartedLine l := rfl

/-- The line record as BLOCKED is entered, before a pending profile is adopted (R10, R13, R23). -/
def blockedLine (reason : BlockReason) (l : Line) : Line :=
  if l.main.inCall then releasedLine (.blocked reason) (restartedLine l)
  else { restartedLine l with main := .blocked reason, sub := .idle }

/-- The records of an entry to BLOCKED: BLOCK, the SEND_DONE of a cut, the PROFILE of a pending adoption. -/
def blockRecords (n : LineNo) (reason : BlockReason) (d : DevTime) (s : State) : List Record :=
  ⟨some n, d, .block reason⟩ :: ((if (s.line n).main.inCall then cutRecord n d s else [])
    ++ pendingRecords n d (s.line n))

/-- The state in which the release effects or the change of main state of an entry to BLOCKED are taken. -/
theorem blockStart_records (n : LineNo) (reason : BlockReason) (d : DevTime) (s : State) :
    LineRecords n [lineRecord n d (.block reason)] s
      (handOver (lineRecord n d (.block reason)) (s.setLine n (restartedLine (s.line n)))) :=
  (setLine_records n s _).trans (handOver_records n _ _)

/-- Adopting a pending profile reaches its line and the Journal Unit alone. -/
theorem adoptPending_frame (n : LineNo) (d : DevTime) (s : State) :
    LineRecords n (pendingRecords n d (s.line n)) s (adoptPending n d s)
      ∧ (adoptPending n d s).line n = pendingAdopted (s.line n) ∧ (adoptPending n d s).pool = s.pool
      ∧ OtherLinesSame n s (adoptPending n d s) := by
  obtain ⟨hr, hl, hp⟩ := adoptPending_spec n d s
  refine ⟨hr, hl, hp, fun m hm => ?_⟩
  unfold adoptPending
  split
  · simp [hm]
  · rfl

/-- Entry to BLOCKED: the line record and the records. -/
theorem enterBlocked_spec (n : LineNo) (reason : BlockReason) (d : DevTime) (s : State) :
    LineRecords n (blockRecords n reason d s) s (enterBlocked n reason d s)
      ∧ (enterBlocked n reason d s).line n = pendingAdopted (blockedLine reason (s.line n)) := by
  have h1 := blockStart_records n reason d s
  have hl1 : (handOver (lineRecord n d (.block reason)) (s.setLine n (restartedLine (s.line n)))).line n
      = restartedLine (s.line n) := by simp
  have hk1 : ∀ k, (handOver (lineRecord n d (.block reason)) (s.setLine n (restartedLine (s.line n)))).sender k
      = s.sender k := by simp
  unfold enterBlocked blockRecords blockedLine
  rw [restart_eq]
  generalize handOver (lineRecord n d (.block reason)) (s.setLine n (restartedLine (s.line n))) = s1 at h1 hl1 hk1 ⊢
  cases hc : (s.line n).main.inCall
  · simp only [Bool.false_eq_true, if_false]
    obtain ⟨hr, hl, -, -⟩ := adoptPending_frame n d (s1.setLine n { s1.line n with main := .blocked reason, sub := .idle })
    rw [line_setLine_self, hl1] at hr hl
    rw [hl1]
    exact ⟨(h1.trans (setLine_records n s1 _)).trans hr, hl⟩
  · simp only [if_true]
    have hcut : cutRecords n d s1 = cutRecord n d s := by
      unfold cutRecords cutRecord sendDone
      simp only [hl1, hk1, restartedLine, lineRecord] <;> rfl
    obtain ⟨h2, -⟩ := releaseEffects_spec n (.blocked reason) d s1
    obtain ⟨h3, hl3, -, -⟩ := adoptPending_frame n d (releaseEffects n (.blocked reason) d s1)
    rw [releaseEffects_line, hl1] at h3 hl3
    rw [hcut] at h2
    exact ⟨(h1.trans h2).trans h3, hl3⟩

/-- Outside a call, entry to BLOCKED reaches neither the Sender Pool nor another line. -/
theorem enterBlocked_outside {n : LineNo} (reason : BlockReason) (d : DevTime) {s : State}
    (h : (s.line n).main.inCall = false) :
    (enterBlocked n reason d s).pool = s.pool ∧ OtherLinesSame n s (enterBlocked n reason d s) := by
  simp only [enterBlocked, h, Bool.false_eq_true, if_false]
  obtain ⟨-, -, hp, ho⟩ := adoptPending_frame n d ((handOver (lineRecord n d (.block reason))
    (s.setLine n (s.line n).restart)).setLine n { (handOver (lineRecord n d (.block reason))
      (s.setLine n (s.line n).restart)).line n with main := .blocked reason, sub := .idle })
  exact ⟨by simpa using hp, fun m hm => by simpa [hm] using ho m hm⟩

/-- In a call, the sender that entry to BLOCKED cuts goes on to the head of the list; with none attached the line leaves the
list (R128, R130, R139). Either way the line does not wait. -/
theorem enterBlocked_inCall {n : LineNo} (reason : BlockReason) (d : DevTime) {s : State}
    (h : (s.line n).main.inCall = true) :
    (∀ k, FreedGoesOn false k n s (enterBlocked n reason d s))
      ∧ ((s.line n).attached = none →
        LeavesTheList n s (enterBlocked n reason d s) ∧ OtherLinesSame n s (enterBlocked n reason d s))
      ∧ ∀ e ∈ (enterBlocked n reason d s).pool.waitList, e.line ≠ n := by
  simp only [enterBlocked, h, if_true]
  generalize hs1 : handOver (lineRecord n d (.block reason)) (s.setLine n (s.line n).restart) = s1
  have hl1 : s1.line n = (s.line n).restart := by simp [← hs1]
  have hp1 : s1.pool = s.pool := by simp [← hs1]
  have ho1 : OtherLinesSame n s s1 := fun m hm => by simp [← hs1, hm]
  have ha1 : (s1.line n).attached = (s.line n).attached := by simp [hl1, restartedLine]
  obtain ⟨⟨⟨hb, -⟩, -⟩, -, hp, ho⟩ := adoptPending_frame n d (releaseEffects n (.blocked reason) d s1)
  obtain ⟨-, -, -, -, -, -, hclk, -⟩ := hb
  refine ⟨fun k => (freedGoesOn_iff ..).2 fun hpool harb ha => ?_, fun ha => ?_, by
    rw [hp]; exact releaseEffects_absent n _ d s1⟩
  · have hn := hpool.absent ha
    obtain ⟨-, -, hd, -⟩ := hpool
    have harb1 : ArbiterLaw s1 := by unfold ArbiterLaw State.sender at *; rwa [hp1]
    exact (releaseEffects_freed (.blocked reason) d (by rwa [hp1]) (by rwa [hp1]) harb1 (ha1.trans ha)).congr
      (by rwa [hp1]) hp1.symm (fun m hm => (ho1 m hm).symm) hp ho hclk
  · obtain ⟨hw, hl⟩ := releaseEffects_unattached (.blocked reason) d (ha1.trans ha)
    exact ⟨by unfold LeavesTheList at *; rw [hp, hw, hp1], fun m hm => by rw [ho m hm, hl m hm, ho1 m hm]⟩

end Sys2Proof.Machine
end

section
/-! SUPPORT. The law of profiles through every operation (R4, R17, R66, R74, R165, R169, R170). -/

namespace Sys2Proof.Machine

/-! ### Profiles that pass the check are sound (R167 to R170) -/

theorem timeCode_le (b : Nat) : timeCode b ≤ 31744 := by
  unfold timeCode Config.maxTime
  split
  · omega
  · rename_i h
    have he : b / 32 % 8 ≤ 5 := by omega
    calc b % 32 * 4 ^ (b / 32 % 8) ≤ 31 * 4 ^ 5 :=
          Nat.mul_le_mul (by omega) (Nat.pow_le_pow_right (by omega) he)
      _ = 31744 := by norm_num

/-- No check of a list fails exactly when each of them is false. -/
theorem firstFailure_none {checks : List (Bool × Nat)} (h : firstFailure checks = none) : ∀ c ∈ checks, c.1 = false := by
  induction checks with
  | nil => simp
  | cons c rest ih =>
    obtain ⟨b, f⟩ := c
    cases b
    · simpa [firstFailure] using ih h
    · simp [firstFailure] at h

/-- A profile that passes the consistency checks after the clamps is sound. -/
theorem readProfile_sound {ws : List Word} (h : firstFailure (profileChecks ws) = none) : ProfileSound (readProfile ws) := by
  have hc := firstFailure_none h
  simp only [profileChecks, List.mem_cons, List.not_mem_nil, or_false, forall_eq_or_imp, forall_eq,
    decide_eq_false_iff_not] at hc
  obtain ⟨-, -, -, -, -, -, -, hhi, hlo, hb, hrel, hf, hp0, hp1, hp2, ht, hon⟩ := hc
  have hdepth : ∀ v, 1 ≤ clampDepth v ∧ clampDepth v ≤ 8 := fun v => by unfold clampDepth; split <;> omega
  have hgain : ∀ v, 1 ≤ clampGain v ∧ clampGain v ≤ 4 := fun v => by unfold clampGain; split <;> omega
  have hamp : ∀ v, clampAmplitude v ≤ 32767 := fun v => Nat.min_le_right _ _
  have hmul : 8 ≤ (readProfile ws).multiplier ∧ (readProfile ws).multiplier ≤ 63 := by
    show 8 ≤ max _ 8 ∧ max _ 8 ≤ 63
    omega
  refine ⟨by omega, by omega, fun hne => ?_, by omega, by omega, by omega, timeCode_le _, by omega, timeCode_le _, by omega,
    timeCode_le _, timeCode_le _, by omega, by omega, (hdepth _).1, (hdepth _).2, (hgain _).1, (hgain _).2, hmul.1, hmul.2,
    hamp _, hamp _⟩
  have := not_and.1 hf hne
  omega

theorem checkProfile_sound {ws : List Word} {p : Profile} (h : checkProfile ws = .good p) : ProfileSound p := by
  unfold checkProfile at h
  split at h
  · split at h
    · cases h
    · rename_i hf
      cases h
      exact readProfile_sound hf
  · cases h

/-! ### Adoption (R14, R34, R35, R68, R172) -/

/-- A line that has adopted a sound profile meets the law. -/
theorem adopt_profileOk {p : Profile} (hp : ProfileSound p) (l : Line) : (l.adopt p).ProfileOk := by
  obtain ⟨-, -, -, -, hlo, hhi, -⟩ := id hp
  unfold Line.adopt Line.ProfileOk
  split
  · simp [Line.restart, hp, hlo, hhi]
  · simp [hp, hlo, hhi]

/-- A line in any main state, as it was before in all that the law names otherwise, meets it once a profile pending then is
adopted. -/
theorem pendingAdopted_profileOk {l l' : Line} (h : l.ProfileOk) (ha : l.adopted ≠ none) (ha' : l'.adopted = l.adopted)
    (hp' : l'.pendingProfile = l.pendingProfile) (ho' : l'.profileOutcome = l.profileOutcome)
    (he' : l'.estimate = l.estimate) (hi' : l'.integrator ≤ l.integrator) : (pendingAdopted l').ProfileOk := by
  obtain ⟨-, hsome, hpend, hout⟩ := h
  unfold pendingAdopted
  cases hp : l'.pendingProfile with
  | some p => exact adopt_profileOk (hpend p (hp'.symm.trans hp)).1 l'
  | none =>
    refine ⟨fun h => absurd (ha'.symm.trans h) ha, fun p h => ?_, by simp [hp], by rw [hp', ho']; exact hout⟩
    obtain ⟨hs, hi, he⟩ := hsome p (ha'.symm.trans h)
    exact ⟨hs, hi'.trans hi, by rwa [he']⟩

/-- A line that is not OUT_OF_SERVICE has an adopted profile. -/
theorem Line.ProfileOk.adopted_ne_none {l : Line} (h : l.ProfileOk) (hm : l.main ≠ .outOfService) : l.adopted ≠ none :=
  fun ha => hm (h.1 ha).1

theorem inCall_ne_outOfService {m : MainState} (h : m.inCall = true) : m ≠ .outOfService := by
  rintro rfl
  cases h

theorem conditioning_ne_outOfService {m : MainState} (h : m.conditioning = true) : m ≠ .outOfService := by
  rintro rfl
  cases h

/-- No profile is pending outside SEIZING and calls. -/
theorem Line.ProfileOk.pending_none {l : Line} (h : l.ProfileOk) (hs : l.main ≠ .seizing) (hc : l.main.inCall = false) :
    l.pendingProfile = none := by
  obtain ⟨-, -, hpend, -⟩ := h
  cases hp : l.pendingProfile with
  | none => rfl
  | some p => simpa [hs, hc] using (hpend p hp).2

/-! ### Blocks, returns and releases -/

theorem ProfileLaws.enterBlocked {n : LineNo} {s : State} (h : ProfileLaws s) (reason : BlockReason) (d : DevTime)
    (hm : (s.line n).main ≠ .outOfService) : ProfileLaws (enterBlocked n reason d s) := by
  obtain ⟨⟨⟨-, ho⟩, -⟩, hl⟩ := enterBlocked_spec n reason d s
  refine h.of_line ho (hl ▸ ?_)
  have ha := Line.ProfileOk.adopted_ne_none (h n) hm
  unfold blockedLine
  split
  · exact pendingAdopted_profileOk (h n) ha rfl rfl rfl rfl (Nat.zero_le _)
  · exact pendingAdopted_profileOk (h n) ha rfl rfl rfl rfl (Nat.zero_le _)

theorem ProfileLaws.leaveBlocked {n : LineNo} {s : State} (h : ProfileLaws s) (reason r : BlockReason) (d : DevTime)
    (hm : (s.line n).main = .blocked r) : ProfileLaws (leaveBlocked n reason d s) := by
  obtain ⟨hl, ho, -⟩ := leaveBlocked_spec n reason d s
  refine h.of_line ho.butSenders (hl ▸ ?_)
  have hn := Line.ProfileOk.pending_none (h n) (by simp [hm]) (by simp [hm, MainState.inCall])
  have ha := Line.ProfileOk.adopted_ne_none (h n) (by simp [hm])
  have hok := pendingAdopted_profileOk (l' := { restartedLine (s.line n) with
    main := .onHook, skipSamples := if reason = .admin then s.scan.samplesDue else 0 })
    (h n) ha rfl rfl rfl rfl (Nat.zero_le _)
  simpa [pendingAdopted, restartedLine, hn] using hok

theorem ProfileLaws.releaseLine {n : LineNo} {s : State} (h : ProfileLaws s) (d : DevTime)
    (hm : (s.line n).main ≠ .outOfService) : ProfileLaws (releaseLine n d s) := by
  obtain ⟨⟨⟨-, ho⟩, -⟩, hl⟩ := releaseLine_spec n d s
  have ha := Line.ProfileOk.adopted_ne_none (h n) hm
  refine h.of_line ho (Line.ProfileOk.sameButSender ?_ hl)
  exact pendingAdopted_profileOk (l' := (s.line n).releaseTo .onHook) (h n) ha rfl rfl rfl rfl le_rfl

/-! ### The sample of a line -/

theorem integrate_le {p : Profile} {i : Nat} (code : LoopCode) (h : i ≤ p.depth) : integrate p code i ≤ p.depth := by
  have hdown : i - 1 ≤ p.depth := by omega
  cases code with
  | opened => exact hdown
  | closed => exact Nat.min_le_right _ _
  | fault => exact h
  | marginal =>
    unfold integrate
    cases p.marginalPolicy with
    | hold => exact h
    | asOpen => exact hdown
    | asClosed => exact Nat.min_le_right _ _

/-- A line record as its sample leaves it, before the transition event (R4 to R9). -/
def Line.conditioned (p : Profile) (code : LoopCode) (l : Line) : Line :=
  { (conditionLine p code l).1 with marginalRaised := l.marginalRaised || raisesMarginal code l }

theorem conditioned_profileOk {p : Profile} {l : Line} (code : LoopCode) (h : l.ProfileOk) (hp : l.adopted = some p) :
    (l.conditioned p code).ProfileOk := by
  obtain ⟨hnone, hsome, hpend, hout⟩ := h
  refine ⟨fun ha => absurd (hp.symm.trans ha) (by simp), fun q hq => ?_, hpend, hout⟩
  obtain rfl : p = q := Option.some.inj (hp.symm.trans hq)
  obtain ⟨hs, hi, he⟩ := hsome p hp
  exact ⟨hs, integrate_le code hi, he⟩

/-- The condition set that a sample raises (R9, R64). -/
def marginalSet (code : LoopCode) (l : Line) : CondSet := Cond.when (raisesMarginal code l) Cond.marginal

theorem conditioningSample_makeStart {n : LineNo} {p : Profile} {code : LoopCode} {s : State} (d : DevTime)
    (h : (conditionLine p code (s.line n)).2 = .makeStart) :
    conditioningSample n p code d s
      = makeStart n p (marginalSet code (s.line n)) d (s.setLine n ((s.line n).conditioned p code)) := by
  simp only [conditioningSample, h]
  rfl

theorem conditioningSample_breakStart {n : LineNo} {p : Profile} {code : LoopCode} {s : State} (d : DevTime)
    (h : (conditionLine p code (s.line n)).2 = .breakStart) :
    conditioningSample n p code d s
      = breakStart n p (marginalSet code (s.line n)) d (s.setLine n ((s.line n).conditioned p code)) := by
  simp only [conditioningSample, h]
  rfl

theorem conditioningSample_quiet {n : LineNo} {p : Profile} {code : LoopCode} {s : State} (d : DevTime)
    (h : (conditionLine p code (s.line n)).2 = .none) :
    conditioningSample n p code d s
      = raiseSet n true (marginalSet code (s.line n)) d (s.setLine n ((s.line n).conditioned p code)) := by
  simp only [conditioningSample, h]
  rfl

/-- After its sample a line sees one event: an abandoned seizure, or an event of its dialling. -/
theorem conditioningSample_cases (n : LineNo) {p : Profile} (code : LoopCode) (d : DevTime) {s : State}
    (hp : (s.line n).adopted = some p) :
    ((s.line n).main = .seizing ∧ (conditionLine p code (s.line n)).2 = .breakStart
        ∧ conditioningSample n p code d s = abandonSeizure n d (s.setLine n ((s.line n).conditioned p code)))
      ∨ DialEvent n (s.setLine n ((s.line n).conditioned p code)) (conditioningSample n p code d s) := by
  cases ht : (conditionLine p code (s.line n)).2 with
  | makeStart =>
    rw [conditioningSample_makeStart d ht]
    exact .inr (dialEvent_makeStart _ d (by simpa [Line.conditioned, conditionLine] using hp))
  | breakStart =>
    rw [conditioningSample_breakStart d ht]
    by_cases hm : (s.line n).main = .seizing
    · exact .inl ⟨hm, rfl, by simp [breakStart, Line.conditioned, conditionLine, hm]⟩
    · exact .inr (dialEvent_breakStart p _ d (by simpa [Line.conditioned, conditionLine] using hm))
  | none =>
    rw [conditioningSample_quiet d ht]
    exact .inr (dialEvent_raiseSet n true _ d _)

theorem ProfileLaws.abandonSeizure {n : LineNo} {s : State} (h : ProfileLaws s) (d : DevTime)
    (hm : (s.line n).main = .seizing) : ProfileLaws (abandonSeizure n d s) := by
  obtain ⟨⟨⟨-, ho⟩, -⟩, hl, -, -⟩ := adoptPending_frame n d
    (s.setLine n { s.line n with main := .onHook, sub := .idle, intervalTimer := 0 })
  refine h.of_line ((lineEvent_setLine n s _).2.trans ho) ?_
  have ha := Line.ProfileOk.adopted_ne_none (h n) (by simp [hm])
  unfold Machine.abandonSeizure
  rw [hl, line_setLine_self]
  exact pendingAdopted_profileOk (h n) ha rfl rfl rfl rfl le_rfl

theorem ProfileLaws.conditioningSample {n : LineNo} {p : Profile} {s : State} (h : ProfileLaws s) (code : LoopCode)
    (d : DevTime) (hp : (s.line n).adopted = some p) : ProfileLaws (conditioningSample n p code d s) := by
  have h1 : ProfileLaws (s.setLine n ((s.line n).conditioned p code)) := h.setLine (conditioned_profileOk code (h n) hp)
  rcases conditioningSample_cases n code d hp with ⟨hm, -, he⟩ | he
  · rw [he]
    exact h1.abandonSeizure d (by simpa [Line.conditioned, conditionLine] using hm)
  · exact he.profileLaws h1

/-! ### What a line does with its sample, by its main state (R3) -/

theorem sampleLine_atRest {n : LineNo} {s : State} (code : LoopCode) (d : DevTime)
    (h : (s.line n).main = .outOfService ∨ (s.line n).main = .blocked .admin) : sampleLine code n d s = s := by
  rcases h with h | h <;> simp [sampleLine, h]

theorem sampleLine_faultBlocked {n : LineNo} {s : State} (code : LoopCode) (d : DevTime)
    (h : (s.line n).main = .blocked .fault) : sampleLine code n d s = s.setLine n ((s.line n).clearSample code) := by
  simp [sampleLine, h]

theorem sampleLine_noProfile {n : LineNo} {s : State} (code : LoopCode) (d : DevTime)
    (hc : (s.line n).main.conditioning = true) (hp : (s.line n).adopted = none) : sampleLine code n d s = s := by
  cases hm : (s.line n).main with
  | onHook | seizing | collecting | through | suspended => simp [sampleLine, hm, hp]
  | outOfService | blocked => simp [hm, MainState.conditioning] at hc

/-- A line in a conditioning state takes its sample, or skips it (R3, R31). -/
theorem sampleLine_adopted {n : LineNo} {p : Profile} {s : State} (code : LoopCode) (d : DevTime)
    (hc : (s.line n).main.conditioning = true) (hp : (s.line n).adopted = some p) :
    sampleLine code n d s = if (s.line n).skipSamples = 0 then conditioningSample n p code d s
      else s.setLine n (s.line n).skipSample := by
  cases hm : (s.line n).main with
  | onHook | seizing | collecting | through | suspended => simp [sampleLine, hm, hp]
  | outOfService | blocked => simp [hm, MainState.conditioning] at hc

theorem sampleLine_skip {n : LineNo} {p : Profile} {s : State} (code : LoopCode) (d : DevTime)
    (hc : (s.line n).main.conditioning = true) (hp : (s.line n).adopted = some p) (hs : (s.line n).skipSamples ≠ 0) :
    sampleLine code n d s = s.setLine n (s.line n).skipSample := by rw [sampleLine_adopted code d hc hp, if_neg hs]

theorem sampleLine_conditioning {n : LineNo} {p : Profile} {s : State} (code : LoopCode) (d : DevTime)
    (hc : (s.line n).main.conditioning = true) (hp : (s.line n).adopted = some p) (hs : (s.line n).skipSamples = 0) :
    sampleLine code n d s = conditioningSample n p code d s := by rw [sampleLine_adopted code d hc hp, if_pos hs]

/-- What a line does with its sample: nothing of note, a clear sample, or the sample of a conditioning state. -/
theorem sampleLine_cases (code : LoopCode) (n : LineNo) (d : DevTime) (s : State) :
    sampleLine code n d s = s
      ∨ sampleLine code n d s = s.setLine n ((s.line n).clearSample code)
      ∨ sampleLine code n d s = s.setLine n (s.line n).skipSample
      ∨ ∃ p, (s.line n).adopted = some p ∧ sampleLine code n d s = conditioningSample n p code d s := by
  by_cases hc : (s.line n).main.conditioning = true
  · cases hp : (s.line n).adopted with
    | none => exact .inl (sampleLine_noProfile code d hc hp)
    | some p =>
      by_cases hs : (s.line n).skipSamples = 0
      · exact .inr (.inr (.inr ⟨p, rfl, sampleLine_conditioning code d hc hp hs⟩))
      · exact .inr (.inr (.inl (sampleLine_skip code d hc hp hs)))
  · by_cases hf : (s.line n).main = .blocked .fault
    · exact .inr (.inl (sampleLine_faultBlocked code d hf))
    · refine .inl (sampleLine_atRest code d ?_)
      cases hm : (s.line n).main with
      | blocked r => cases r <;> simp_all
      | outOfService => simp
      | onHook | seizing | collecting | through | suspended => simp [hm, MainState.conditioning] at hc

theorem clearSample_profileOk (code : LoopCode) (l : Line) : (l.clearSample code).ProfileOk ↔ l.ProfileOk := by
  unfold Line.clearSample
  split <;> rfl

theorem ProfileLaws.sampleLine {s : State} (h : ProfileLaws s) (code : LoopCode) (n : LineNo) (d : DevTime) :
    ProfileLaws (sampleLine code n d s) := by
  rcases sampleLine_cases code n d s with he | he | he | ⟨p, hp, he⟩ <;> rw [he]
  · exact h
  · exact h.setLine ((clearSample_profileOk code _).2 (h n))
  · exact h.setLine (h n)
  · exact h.conditioningSample code d hp

theorem ProfileLaws.sampleLines {s : State} (h : ProfileLaws s) (frame : BitVec 192) (d : DevTime) (ns : List LineNo) :
    ProfileLaws (sampleLines frame d ns s) := by
  induction ns generalizing s with
  | nil => exact h
  | cons n rest ih => exact ih (h.sampleLine _ n d)

end Sys2Proof.Machine
end

section
/-! SUPPORT. What a command does to the line records: the commands that leave them all, the tick boundaries, the sender's
expiries, the request step, and the steps of the law of profiles through all of them. -/

namespace Sys2Proof.Machine

/-! ### Steps that may be due -/

/-- A step is taken, or the state stays. -/
theorem whenDue_cases {due : Bool} {s t u : State} (h : whenDue due s t = .next u) : due = true ∧ u = t ∨ u = s := by
  cases due
  · exact .inr (Host.Outcome.next.inj h).symm
  · exact .inl ⟨rfl, (Host.Outcome.next.inj h).symm⟩

/-- A property that the state has, and the step if it is due, holds afterwards. -/
theorem whenDue_keeps {due : Bool} {s t u : State} {P : State → Prop} (h : whenDue due s t = .next u) (hs : P s)
    (ht : due = true → P t) : P u := by
  rcases whenDue_cases h with ⟨hd, rfl⟩ | rfl
  · exact ht hd
  · exact hs

theorem whenDue_lines {due : Bool} {s t u : State} (h : whenDue due s t = .next u) (ht : t.lines = s.lines) :
    u.lines = s.lines := whenDue_keeps (P := fun x => x.lines = s.lines) h rfl fun _ => ht

/-! ### Commands that leave every line record -/

/-- The commands that reach no line record: those of the clock but for frame starts, of the bursts, of the line side, of the
port but for LINE_TAKE_UP, of the journal and of the register window. -/
def keepsLines : Instr → Bool
  | .timeRollover | .qualifyTimeout | .dividerWindowClose | .burstStart _ | .burstExpiry _ | .lineSlotReceived _ _ => true
  | .sequenceStart | .busGrant | .transferDone _ | .visitComplete | .headerTakeUp _ | .planLoadOutcome _ => true
  | .headerVisitComplete | .headerCheck | .busError _ | .busTimeout | .releaseRead | .journalCommit | .holdOffClear => true
  | .run | .halt | .clearFault | .ignoredCommand _ | .areaBaseWrite _ | .statusWrite _ | .attentionWrite _ => true
  | .resetNReturnsHigh | .supplyInOperatingRange => true
  | _ => false

@[simp] theorem beginBurst_lines (k : SenderNo) (n : LineNo) (s : State) : (beginBurst k n s).lines = s.lines := by
  simp only [beginBurst]
  split <;> rfl

@[simp] theorem recompose_lines (moved : LineNo → Bool) (s : State) : (recompose moved s).lines = s.lines := by
  unfold recompose
  split <;> rfl

@[simp] theorem takeBurstExpiry_lines (k : SenderNo) (s : State) : (takeBurstExpiry k s).lines = s.lines := by
  unfold takeBurstExpiry
  split
  · split
    · simp
    · rfl
  · rfl

@[simp] theorem changeClock_lines (st : ClockState) (s : State) : (changeClock st s).lines = s.lines :=
  (changeClock_spec st s).2.2.2.1

@[simp] theorem endSequence_lines (s : State) : (endSequence s).lines = s.lines := (endSequence_spec s).2.1

theorem planOutcome_lines (edition : Byte) (got : List Word) (s : State) : (planOutcome edition got s).lines = s.lines := by
  simp only [planOutcome, handOver_lines]
  split <;> rfl

theorem readRelease_lines (r : Nat) (q : Sequence) (s : State) : (readRelease r q s).lines = s.lines := by
  simp only [readRelease]
  split
  · simp
  · rfl

theorem haltPort_lines (s : State) : (haltPort s).lines = s.lines := by
  unfold haltPort enterHalting
  split
  · rfl
  · simp only
    split <;> rfl
  · rfl
  · rfl
  · rfl

theorem dividerWindowClose_lines {s t : State} (h : execDividerWindowClose s = .next t) : t.lines = s.lines := by
  unfold execDividerWindowClose at h
  split at h
  · exact whenDue_lines h rfl
  · cases h; rfl

theorem burstStart_lines {k : SenderNo} {s t : State} (h : execBurstStart k s = .next t) : t.lines = s.lines := by
  unfold execBurstStart at h
  split at h
  · exact whenDue_lines h (beginBurst_lines k _ s)
  · cases h; rfl

theorem sequenceStart_lines {s t : State} (h : execSequenceStart s = .next t) : t.lines = s.lines := by
  unfold execSequenceStart at h
  split at h
  · exact whenDue_lines h rfl
  · cases h; rfl

theorem busGrant_lines {s t : State} (h : execBusGrant s = .next t) : t.lines = s.lines := by
  unfold execBusGrant at h
  split at h
  · exact whenDue_lines h rfl
  · cases h; rfl

theorem transferDone_lines {data : Word} {s t : State} (h : execTransferDone data s = .next t) : t.lines = s.lines := by
  unfold execTransferDone at h
  split at h
  · refine whenDue_lines h ?_
    split
    · rfl
    · exact (readDone_spec data _ _).2.1
  · cases h; rfl

theorem visitComplete_lines {s t : State} (h : execVisitComplete s = .next t) : t.lines = s.lines := by
  unfold execVisitComplete at h
  split at h
  · split at h
    · exact whenDue_lines h (endSequence_lines _)
    all_goals cases h; rfl
  · cases h; rfl

theorem headerTakeUp_lines {now : Bool} {s t : State} (h : execHeaderTakeUp now s = .next t) : t.lines = s.lines := by
  unfold execHeaderTakeUp at h
  split at h
  · refine whenDue_lines h ?_
    split <;> rfl
  · cases h; rfl

theorem planLoadOutcome_lines {now : Bool} {s t : State} (h : execPlanLoadOutcome now s = .next t) : t.lines = s.lines := by
  unfold execPlanLoadOutcome at h
  split at h
  · exact whenDue_lines h (planOutcome_lines _ _ s)
  · cases h; rfl

theorem headerVisitComplete_lines {s t : State} (h : execHeaderVisitComplete s = .next t) : t.lines = s.lines := by
  unfold execHeaderVisitComplete at h
  split at h
  · exact whenDue_lines h (endSequence_lines _)
  · cases h; rfl

theorem headerCheck_lines {s t : State} (h : execHeaderCheck s = .next t) : t.lines = s.lines := by
  unfold execHeaderCheck at h
  split at h
  · refine whenDue_lines h ?_
    split
    · rfl
    · split
      · exact endSequence_lines _
      · rfl
  · cases h; rfl

theorem busError_lines {done : Bool} {s t : State} (h : execBusError done s = .next t) : t.lines = s.lines := by
  unfold execBusError at h
  split at h
  · exact whenDue_lines h rfl
  · cases h; rfl

theorem releaseRead_lines {s t : State} (h : execReleaseRead s = .next t) : t.lines = s.lines := by
  unfold execReleaseRead at h
  split at h
  · exact whenDue_lines h (readRelease_lines _ _ s)
  · cases h; rfl

theorem journalCommit_lines {s t : State} (h : execJournalCommit s = .next t) : t.lines = s.lines := by
  unfold execJournalCommit at h
  split at h
  · exact whenDue_lines h (endSequence_lines _)
  · cases h; rfl

/-- These commands leave the line records as they are. -/
theorem exec_lines {i : Instr} {s t : State} (hi : keepsLines i = true) (h : exec i s = .next t) : t.lines = s.lines := by
  cases i
  case timeRollover => exact whenDue_lines (show execTimeRollover s = .next t from h) rfl
  case qualifyTimeout => exact whenDue_lines (show execQualifyTimeout s = .next t from h) (changeClock_lines _ _)
  case dividerWindowClose => exact dividerWindowClose_lines h
  case burstStart => exact burstStart_lines h
  case sequenceStart => exact sequenceStart_lines h
  case busGrant => exact busGrant_lines h
  case transferDone => exact transferDone_lines h
  case visitComplete => exact visitComplete_lines h
  case headerTakeUp => exact headerTakeUp_lines h
  case planLoadOutcome => exact planLoadOutcome_lines h
  case headerVisitComplete => exact headerVisitComplete_lines h
  case headerCheck => exact headerCheck_lines h
  case busError done => exact busError_lines (done := done) h
  case releaseRead => exact releaseRead_lines h
  case journalCommit => exact journalCommit_lines h
  case burstExpiry k => cases h; exact takeBurstExpiry_lines k s
  case halt => exact whenDue_lines (show execHalt s = .next t from h) (haltPort_lines s)
  case holdOffClear => exact whenDue_lines (show execHoldOffClear s = .next t from h) (requestJournal_lines _)
  case lineSlotReceived c v => exact whenDue_lines (show execLineSlotReceived c v s = .next t from h) rfl
  case busTimeout => exact whenDue_lines (show execBusTimeout s = .next t from h) rfl
  case run => exact whenDue_lines (show execRun s = .next t from h) rfl
  case clearFault => exact whenDue_lines (show execClearFault s = .next t from h) rfl
  case areaBaseWrite v => exact whenDue_lines (show execAreaBaseWrite v s = .next t from h) rfl
  case statusWrite v => exact whenDue_lines (show execStatusWrite v s = .next t from h) rfl
  case attentionWrite v => exact whenDue_lines (show execAttentionWrite v s = .next t from h) rfl
  case ignoredCommand => cases h; rfl
  case resetNReturnsHigh => cases h; rfl
  case supplyInOperatingRange => cases h; rfl
  all_goals cases hi

/-! ### Tick boundaries and frames -/

theorem ProfileLaws.tickTaken {s t : State} (h : ProfileLaws s) (ht : TickTaken s t) : ProfileLaws t := fun n => by
  obtain ⟨-, -, hl, -⟩ := ht
  rw [hl n]
  exact h n

theorem ProfileLaws.tickBoundary_of {s t : State} (h : ProfileLaws s) (ht : t.lines = s.lines) :
    ProfileLaws (tickBoundary t) := (h.of_lines ht).tickTaken (tickBoundary_spec t).1

theorem ProfileLaws.startFrame {s : State} (h : ProfileLaws s) : ProfileLaws (startFrame s) := by
  by_cases hf : (s.clk.frame + 1) % 4 = 0
  · exact h.tickTaken (startFrame_boundary s hf).1
  · obtain ⟨⟨hl, -⟩, -⟩ := startFrame_inside s hf
    exact h.of_lines hl

/-- A frame start of a state with the same line records. -/
theorem ProfileLaws.startFrame_of {s t : State} (h : ProfileLaws s) (ht : t.lines = s.lines) :
    ProfileLaws (Machine.startFrame t) := (h.of_lines ht).startFrame

theorem ProfileLaws.takeEdge {s : State} (h : ProfileLaws s) : ProfileLaws (takeEdge s) := by
  unfold Machine.takeEdge
  split
  · exact h.of_lines (changeClock_lines _ _)
  · exact h.of_lines (changeClock_lines _ _)
  · simp only [qualifyEdge]
    split
    · split
      · exact h.startFrame.of_lines (changeClock_lines _ _)
      · exact h.of_lines rfl
    · exact h.of_lines rfl
  · unfold lockedEdge
    split
    · exact h
    · exact (h.startFrame_of rfl : ProfileLaws (nextLockedFrame 0 s)).of_lines rfl

/-! ### The senders' expiries -/

/-- Keys leave a store without the law of profiles. -/
theorem ProfileLaws.setStore {s : State} (h : ProfileLaws s) (n : LineNo) (ks : List StoredKey) :
    ProfileLaws (s.setLine n { s.line n with store := ks }) := h.setLine (h n)

theorem ProfileLaws.arbitrate {s : State} (h : ProfileLaws s) (b : Bool) : ProfileLaws (arbitrate b s) :=
  h.of_pool (arbitrate_event b s).2.1

theorem ProfileLaws.freeSender {s : State} (h : ProfileLaws s) (k : SenderNo) (n : LineNo) (reason : SendReason)
    (d : DevTime) : ProfileLaws (freeSender k n reason d s) := h.of_pool (freeSender_spec k n reason d s).2.1

theorem ProfileLaws.expireGap {s : State} (h : ProfileLaws s) (k : SenderNo) (n : LineNo) :
    ProfileLaws (expireGap k n s) := by
  simp only [Machine.expireGap]
  split
  · exact h.of_lines (beginBurst_lines k n _)
  · have h1 : ProfileLaws ((s.setSender k { s.sender k with keysSent := bump (s.sender k).keysSent }).setLine n
        { s.line n with store := (s.line n).store.drop 1 }) :=
      ProfileLaws.setStore (s := s.setSender k _) (h.of_lines rfl) n _
    split
    · exact ((h1.freeSender _ _ _ _).arbitrate true).of_lines (recompose_lines _ _)
    · exact h1.of_lines (beginBurst_lines k n _)

theorem ProfileLaws.takeGapExpiry {s : State} (h : ProfileLaws s) (k : SenderNo) : ProfileLaws (takeGapExpiry k s) := by
  unfold Machine.takeGapExpiry
  split
  · split
    · exact h.expireGap k _
    · exact h
  · exact h

theorem ProfileLaws.takeAllExpiries {s : State} (h : ProfileLaws s) (ks : List SenderNo) :
    ProfileLaws (takeAllExpiries ks s) := by
  induction ks generalizing s with
  | nil => exact h
  | cons k rest ih => exact ih ((h.of_lines (takeBurstExpiry_lines k s)).takeGapExpiry k)

theorem ProfileLaws.filledFrame {s t : State} (h : ProfileLaws s) (he : execFilledFrame s = .next t) : ProfileLaws t := by
  refine whenDue_keeps he h fun _ => ?_
  have h1 : ProfileLaws (nextLockedFrame (s.clk.missing + 1) { s with clk := s.clk.passTo Config.maxSpacing }) :=
    h.startFrame_of rfl
  split
  · have h2 : ProfileLaws (expiriesBeforeLoss
        (nextLockedFrame (s.clk.missing + 1) { s with clk := s.clk.passTo Config.maxSpacing })) := by
      unfold expiriesBeforeLoss
      split
      · exact h1.takeAllExpiries _
      · exact h1
    exact h2.of_lines (changeClock_lines _ _)
  · exact h1.of_lines rfl

/-! ### The request step (R174, R175) -/

theorem ProfileLaws.inject {s : State} (h : ProfileLaws s) (n : LineNo) (count : Nat) (keys : Word) :
    ProfileLaws (doInject n count keys s).1 := by
  simp only [doInject]
  split
  · exact ((dialEvent_offerTo n _ s).trans (dialEvent_joinTest n n _)).profileLaws h
  · exact h

theorem ProfileLaws.flush {s : State} (h : ProfileLaws s) (n : LineNo) : ProfileLaws (doFlush n s).1 := by
  simp only [doFlush]
  split
  · split
    · exact h
    · split
      · exact (h.setStore n _).of_lines rfl
      · exact (h.setStore n _).of_lines rfl
  · exact h

theorem ProfileLaws.endNumber {s : State} (h : ProfileLaws s) (n : LineNo) (d : DevTime) :
    ProfileLaws (doEndNumber n d s).1 := by
  simp only [doEndNumber]
  split
  · rename_i p hp
    split
    · have h1 := dialEvent_raiseClass n (evaluate s.plan.table (s.line n).digits) s
      exact (h1.trans (dialEvent_completeNumber p _ _ d (h1.adopted_ne_none (by simp [hp])))).profileLaws h
    · exact h
  · exact h

/-- A resumed line goes to COLLECTING or THROUGH (R29). -/
theorem dialStep_resumeTo (target : ResumeTarget) {l : Line} (h : l.adopted ≠ none) : DialStep l (l.resumeTo target) := by
  unfold Line.resumeTo
  cases target with
  | collecting =>
    simp only
    split
    · exact { main := .inr ⟨h, .inr rfl⟩ }
    · exact { main := .inr ⟨h, .inr rfl⟩ }
  | through => exact { main := .inr ⟨h, .inr rfl⟩ }

theorem ProfileLaws.resume {s : State} (h : ProfileLaws s) (n : LineNo) : ProfileLaws (doResume n s).1 := by
  simp only [doResume]
  split
  · rename_i hm
    have ha := Line.ProfileOk.adopted_ne_none (h n) (by simp [hm])
    split
    · exact ((dialEvent_setLine (dialStep_resumeTo _ ha)).trans (dialEvent_joinTest n n _)).profileLaws h
    · exact h
  · exact h

theorem ProfileLaws.block {s : State} (h : ProfileLaws s) (n : LineNo) (d : DevTime) :
    ProfileLaws (doBlock n d s).1 := by
  unfold doBlock
  split
  · exact h
  · exact h
  all_goals
    rename_i hm
    exact h.enterBlocked .admin d (by simp [hm])

theorem ProfileLaws.unblock {s : State} (h : ProfileLaws s) (n : LineNo) (d : DevTime) :
    ProfileLaws (doUnblock n d s).1 := by
  unfold doUnblock
  split
  · rename_i hm
    exact h.leaveBlocked .admin .admin d hm
  · exact h

/-- The nominal estimate lies within the limits of a sound profile (R70, R74). -/
theorem ProfileLaws.resetSpeed {s : State} (h : ProfileLaws s) (n : LineNo) : ProfileLaws (doResetSpeed n s).1 := by
  simp only [doResetSpeed]
  split
  · rename_i p hp
    split
    · exact h
    · refine h.setLine (Line.ProfileOk.dialStep (h n) { estimate := .inr ⟨p, hp, fun hs _ => ?_⟩ })
      obtain ⟨-, -, -, -, hlo, hhi, -⟩ := hs
      exact ⟨by simpa using hlo, by simpa using hhi⟩
  · exact h

theorem ProfileLaws.request {s : State} (h : ProfileLaws s) (code count : Nat) (keys : Word) (n : LineNo) (d : DevTime) :
    ProfileLaws (doRequest code count keys n d s).1 := by
  unfold doRequest
  split_ifs
  · exact h
  · exact h.inject n count keys
  · exact h.flush n
  · exact h.endNumber n d
  · exact h.resume n
  · exact h.setLine (h n)
  · exact h.block n d
  · exact h.unblock n d
  · exact h.resetSpeed n
  · exact h

/-- The acknowledgement of a request does not touch what the law names. -/
theorem ProfileLaws.takeRequest {s : State} (h : ProfileLaws s) (n : LineNo) (edition : Byte)
    {r : State × RequestOutcome} (hr : ProfileLaws r.1) : ProfileLaws (takeRequest n edition s r) := by
  unfold Machine.takeRequest acknowledge
  split
  · exact h
  · exact hr.setLine (hr n)

/-! ### The take-up of a profile (R164 to R173) -/

theorem takeProfile_profileOk {p : Profile} {l : Line} (edition : Byte) (h : l.ProfileOk) (hp : ProfileSound p) :
    (l.takeProfile edition p).ProfileOk := by
  simp only [Line.takeProfile]
  split
  · rename_i hc
    obtain ⟨hnone, hsome, -, -⟩ := h
    refine ⟨hnone, hsome, fun q hq => ?_, by simp⟩
    cases hq
    exact ⟨hp, hc.symm⟩
  · exact adopt_profileOk hp _

theorem refuse_profileOk {l : Line} (edition : Byte) {o : ProfileOutcome} (h : l.ProfileOk) (ho : o ≠ .deferred) :
    (l.refuse edition o).ProfileOk := by
  obtain ⟨hnone, hsome, -, -⟩ := h
  exact ⟨hnone, hsome, fun _ hq => absurd hq (by simp [Line.refuse]), by simp [Line.refuse, ho]⟩

theorem profileTaken_profileOk {l : Line} (edition : Byte) (ws : List Word) (h : l.ProfileOk) :
    (l.profileTaken edition ws).ProfileOk := by
  unfold Line.profileTaken
  split
  · exact refuse_profileOk edition h (by simp)
  · exact refuse_profileOk edition h (by simp)
  · rename_i p hp
    exact takeProfile_profileOk edition h (checkProfile_sound hp)

theorem ProfileLaws.takeUp {s : State} (h : ProfileLaws s) (n : LineNo) (got : List Word) (d : DevTime) :
    ProfileLaws (takeUp n got d s) := by
  have h1 : ProfileLaws (profileStep n (byteOf (got.getD 0 0) 0) (got.drop 2) d s) := by
    simp only [profileStep]
    split
    · exact h
    · exact (h.setLine (profileTaken_profileOk _ _ (h n))).of_lines (handOver_lines _ _)
  exact h1.takeRequest n _ (h1.request _ _ _ n d)

theorem ProfileLaws.lineTakeUp {now : Bool} {s t : State} (h : ProfileLaws s) (he : execLineTakeUp now s = .next t) :
    ProfileLaws t := by
  unfold execLineTakeUp at he
  split at he
  · rename_i q hq
    split at he
    · rename_i n hn
      exact whenDue_keeps he h fun _ => (h.takeUp n q.got s.now).of_lines rfl
    all_goals
      cases he
      exact h
  · cases he
    exact h

/-! ### The expiries of a line -/

theorem ProfileLaws.interdigitExpiry {n : LineNo} {s t : State} (h : ProfileLaws s)
    (he : execInterdigitExpiry n s = .next t) : ProfileLaws t := by
  unfold execInterdigitExpiry at he
  split at he
  · rename_i p hp
    exact whenDue_keeps he h fun _ => (dialEvent_endDigit p _ (by simp [hp])).profileLaws h
  · cases he
    exact h

theorem ProfileLaws.completionTimerExpiry {n : LineNo} {s t : State} (h : ProfileLaws s)
    (he : execCompletionTimerExpiry n s = .next t) : ProfileLaws t := by
  unfold execCompletionTimerExpiry at he
  split at he
  · rename_i p hp
    exact whenDue_keeps he h fun _ => (dialEvent_expireCompletion p _ (by simp [hp])).profileLaws h
  · cases he
    exact h

theorem guardDue_adopted {l : Line} (h : l.guardDue = true) : l.adopted ≠ none := by
  intro ha
  simp [Line.guardDue, ha] at h

theorem releaseDue_inCall {l : Line} (h : l.releaseDue = true) : l.main.inCall = true := by
  unfold Line.releaseDue at h
  split at h
  · simp only [Bool.and_eq_true] at h
    exact h.1.1
  · cases h

theorem ProfileLaws.guardExpiry {n : LineNo} {s t : State} (h : ProfileLaws s) (he : execGuardExpiry n s = .next t) :
    ProfileLaws t := by
  refine whenDue_keeps he h fun hd => ?_
  have ha : (s.line n).adopted ≠ none := guardDue_adopted (Bool.and_eq_true_iff.1 hd).2
  exact (dialEvent_enterCollecting s.sampleTime ha).profileLaws h

theorem ProfileLaws.releaseExpiry {n : LineNo} {s t : State} (h : ProfileLaws s) (he : execRelease n s = .next t) :
    ProfileLaws t := by
  refine whenDue_keeps he h fun hd => ?_
  have hm : (s.line n).main.inCall = true := releaseDue_inCall (Bool.and_eq_true_iff.1 hd).2
  exact h.releaseLine s.sampleTime (inCall_ne_outOfService hm)

theorem ProfileLaws.faultBlock {n : LineNo} {s t : State} (h : ProfileLaws s) (he : execFaultBlock n s = .next t) :
    ProfileLaws t := by
  refine whenDue_keeps he h fun hd => ?_
  simp only [Line.faultBlockDue, Bool.and_eq_true] at hd
  obtain ⟨-, ⟨-, hm⟩, -⟩ := hd
  exact h.enterBlocked .fault s.sampleTime (conditioning_ne_outOfService hm)

theorem ProfileLaws.faultReturn {n : LineNo} {s t : State} (h : ProfileLaws s) (he : execFaultReturn n s = .next t) :
    ProfileLaws t := by
  refine whenDue_keeps he h fun hd => ?_
  simp only [Line.faultReturnDue, Bool.and_eq_true, beq_iff_eq] at hd
  obtain ⟨-, -, hm⟩ := hd
  exact h.leaveBlocked .fault .fault s.sampleTime hm

theorem ProfileLaws.reset (cause : ResetCause) (part : Part) (s : State) : ProfileLaws (resetPart cause part s) := by
  intro n
  have hl : (resetPart cause part s).line n = Line.reset := by simp [resetPart, State.line, State.reset]
  rw [hl]
  simp [Line.reset]

/-! ### The law through every command -/

theorem ProfileLaws.exec {i : Instr} {s t : State} (h : ProfileLaws s) (he : exec i s = .next t) : ProfileLaws t := by
  by_cases hi : keepsLines i = true
  · exact h.of_lines (exec_lines hi he)
  cases i
  case powerOn => cases he; exact .reset _ _ _
  case pinReset c => exact whenDue_keeps (show execPinReset c s = .next t from he) h fun _ => .reset _ _ _
  case softReset => exact whenDue_keeps (show execSoftReset s = .next t from he) h fun _ => .reset _ _ _
  case startUpHoldEnd =>
    exact whenDue_keeps (show execStartUpHoldEnd s = .next t from he) h fun _ =>
      h.tickBoundary_of rfl
  case frameStart => exact whenDue_keeps (show execFrameStart s = .next t from he) h fun _ => h.startFrame_of rfl
  case xfsEdge c =>
    exact whenDue_keeps (show execXfsEdge c s = .next t from he) h fun _ => ProfileLaws.takeEdge (h.of_lines rfl)
  case lockHandoverTimeout =>
    exact whenDue_keeps (show execLockHandoverTimeout s = .next t from he) h fun _ => h.startFrame_of rfl
  case filledFrame => exact h.filledFrame he
  case scanFrameComplete f =>
    refine whenDue_keeps (show execScanFrameComplete f s = .next t from he) h fun _ => ?_
    have h1 : ProfileLaws { s with scan := s.scan.finish s.now } := h.of_lines rfl
    exact h1.sampleLines f _ _
  case guardExpiry n => exact h.guardExpiry he
  case interdigitExpiry n => exact h.interdigitExpiry he
  case completionTimerExpiry n => exact h.completionTimerExpiry he
  case release n => exact h.releaseExpiry he
  case faultBlock n => exact h.faultBlock he
  case faultReturn n => exact h.faultReturn he
  case gapExpiry k => cases he; exact h.takeGapExpiry k
  case lineTakeUp now => exact h.lineTakeUp he
  case requestNone n e =>
    exact whenDue_keeps (show execNone n e s = .next t from he) h fun _ => h.takeRequest n e (r := doNone s) h
  case inject n e c ks =>
    exact whenDue_keeps (show execInject n e c ks s = .next t from he) h fun _ => h.takeRequest n e (h.inject n _ ks)
  case flush n e => exact whenDue_keeps (show execFlush n e s = .next t from he) h fun _ => h.takeRequest n e (h.flush n)
  case endNumber n e =>
    exact whenDue_keeps (show execEndNumber n e s = .next t from he) h fun _ => h.takeRequest n e (h.endNumber n _)
  case resume n e => exact whenDue_keeps (show execResume n e s = .next t from he) h fun _ => h.takeRequest n e (h.resume n)
  case clearFlags n e =>
    exact whenDue_keeps (show execClearFlags n e s = .next t from he) h fun _ =>
      h.takeRequest n e (r := doClearFlags n s) (h.setLine (h n))
  case block n e => exact whenDue_keeps (show execBlock n e s = .next t from he) h fun _ => h.takeRequest n e (h.block n _)
  case unblock n e =>
    exact whenDue_keeps (show execUnblock n e s = .next t from he) h fun _ => h.takeRequest n e (h.unblock n _)
  case resetSpeed n e =>
    exact whenDue_keeps (show execResetSpeed n e s = .next t from he) h fun _ => h.takeRequest n e (h.resetSpeed n)
  case unknownRequest n e c =>
    exact whenDue_keeps (show execUnknownRequest n e c s = .next t from he) h fun _ =>
      h.takeRequest n e (r := doUnknown s) h
  all_goals exact absurd rfl hi

/-- Settles O57: every command keeps the law of each line record. -/
theorem profileLawsKept : Obligations.ProfileLawsKept := by
  intro s t h he
  unfold step at he
  split at he
  · rename_i c rest _
    exact ProfileLaws.exec (s := { s with pending := rest }) (h.of_lines rfl) he
  · cases he
    exact h

end Sys2Proof.Machine
end

section
/-! SUPPORT. Blocks and returns of a line (O25, O49), the adoption of a profile (O26), the state after a reset (O8). -/

namespace Sys2Proof.Machine

theorem whenDue_true {due : Bool} (h : due = true) (s t : State) : whenDue due s t = .next t := by simp [whenDue, h]

theorem whenDue_false {due : Bool} (h : due = false) (s t : State) : whenDue due s t = .next s := by simp [whenDue, h]

theorem working_iff {s : State} : s.working = true ↔ s.part.phase = .working := by simp [State.working]

/-! ### FAULT_BLOCK and FAULT_RETURN (R10, R12, R32, R33) -/

theorem faultBlock_due {n : LineNo} {s : State} (hw : s.part.phase = .working) (hd : (s.line n).faultBlockDue = true) :
    exec (.faultBlock n) s = .next (enterBlocked n .fault s.scan.sampleAt s) :=
  whenDue_true (by simp [working_iff.2 hw, hd]) _ _

/-- The line after a release: ON_HOOK with what the release effects leave, then a pending adoption. -/
theorem releaseLine_line (n : LineNo) (d : DevTime) (s : State) :
    (releaseLine n d s).line n = pendingAdopted (releasedLine .onHook (s.line n)) := by
  obtain ⟨-, hl, -, -⟩ := adoptPending_frame n d
    (releaseEffects n .onHook d (handOver (lineRecord n d (.release (s.line n).store.length)) s))
  have hr := releaseEffects_line n .onHook d (handOver (lineRecord n d (.release (s.line n).store.length)) s)
  rw [hr, line_handOver] at hl
  exact hl

theorem pendingAdopted_pending (l : Line) : (pendingAdopted l).pendingProfile = none := by
  unfold pendingAdopted
  split
  · unfold Line.adopt
    split <;> rfl
  · assumption

/-- A line still ON_HOOK after a pending adoption keeps a comparison already made (R14). -/
theorem pendingAdopted_runTestMet {l : Line} (hm : l.main = .onHook) (h : (pendingAdopted l).main = .onHook) :
    (pendingAdopted l).runTestMet = l.runTestMet := by
  unfold pendingAdopted at *
  cases hp : l.pendingProfile with
  | none => rfl
  | some p =>
    simp only [hp] at h ⊢
    cases hs : p.inService
    · simp [Line.adopt, Line.restart, serviceState, hs] at h
    · simp [Line.adopt, hs, hm]

/-- A block of a line outside calls that holds no pending profile. -/
theorem enterBlocked_quiet {n : LineNo} (reason : BlockReason) (d : DevTime) {s : State}
    (hc : (s.line n).main.inCall = false) (hp : (s.line n).pendingProfile = none) :
    (enterBlocked n reason d s).line n = { restartedLine (s.line n) with main := .blocked reason, sub := .idle }
      ∧ Recorded [⟨some n, d, .block reason⟩] s (enterBlocked n reason d s) := by
  obtain ⟨⟨-, hr⟩, hl⟩ := enterBlocked_spec n reason d s
  refine ⟨?_, ?_⟩
  · simpa [blockedLine, hc, pendingAdopted, restartedLine, hp] using hl
  · simpa [blockRecords, hc, pendingRecords, hp] using hr

/-- Settles O25: from the entry to BLOCKED, the return from it, and the release that goes first. -/
theorem faultBlockAndReturn : Obligations.FaultBlockAndReturn := by
  intro n s hw hrun
  refine ⟨fun hcond hrel => ?_, fun hm => ?_, fun hrel => ?_⟩
  · have hdue : (s.line n).faultBlockDue = true := by simp [Line.faultBlockDue, hrun, hcond, hrel]
    obtain ⟨⟨-, hr⟩, hl⟩ := enterBlocked_spec n .fault s.scan.sampleAt s
    refine ⟨_, faultBlock_due hw hdue, hl, fun hc => ?_, fun hc => enterBlocked_outside .fault _ hc, hr⟩
    obtain ⟨hgo, hlist, -⟩ := enterBlocked_inCall .fault s.scan.sampleAt hc
    exact ⟨hgo, hlist⟩
  · have hdue : (s.working && (s.line n).faultReturnDue) = true := by simp [working_iff.2 hw, Line.faultReturnDue, hrun, hm]
    obtain ⟨hl, ho, hb, hp, hr⟩ := leaveBlocked_spec n .fault s.scan.sampleAt s
    exact ⟨_, whenDue_true hdue _ _, hl, ho, hb, hp, hr⟩
  · have hnot : (s.working && (s.line n).faultBlockDue) = false := by simp [Line.faultBlockDue, hrel]
    refine ⟨whenDue_false hnot _ _, _, whenDue_true (by simp [working_iff.2 hw, hrel]) _ _, fun hm => ?_⟩
    generalize ht : releaseLine n s.sampleTime s = t at hm ⊢
    have hl : t.line n = pendingAdopted (releasedLine .onHook (s.line n)) := ht ▸ releaseLine_line n _ s
    obtain ⟨⟨⟨⟨-, hpart, -, hscan, -⟩, -⟩, -⟩, -⟩ := ht ▸ releaseLine_spec n s.sampleTime s
    have hrun' : (t.line n).runTestMet = true := by
      rw [hl, pendingAdopted_runTestMet rfl (hl ▸ hm)]
      exact hrun
    have hnone : (t.line n).pendingProfile = none := hl ▸ pendingAdopted_pending _
    have hdue : (t.line n).faultBlockDue = true := by
      have : (t.line n).releaseDue = false := by
        unfold Line.releaseDue
        split <;> simp [hm, MainState.inCall]
      simp [Line.faultBlockDue, hrun', hm, this, MainState.conditioning]
    obtain ⟨hu, hr⟩ := enterBlocked_quiet .fault t.scan.sampleAt (by simp [hm, MainState.inCall]) hnone
    refine ⟨_, faultBlock_due (hpart ▸ hw) hdue, by rw [hu], by rw [hu]; rfl, ?_⟩
    rw [hscan] at hr ⊢
    exact hr

/-! ### BLOCK and UNBLOCK (R30, R31) -/

/-- A request of a new edition is taken and acknowledged. -/
theorem takeRequest_new {n : LineNo} {e : Byte} {s : State} (h : (s.line n).requestEdition ≠ some e)
    (r : State × RequestOutcome) : takeRequest n e s r = acknowledge n e r := by simp [takeRequest, h]

/-- The acknowledgement touches the request fields of its line alone. -/
theorem acknowledge_spec (n : LineNo) (e : Byte) (r : State × RequestOutcome) :
    (acknowledge n e r).line n = { r.1.line n with requestEdition := some e, requestOutcome := r.2 }
      ∧ OtherLinesSame n r.1 (acknowledge n e r) ∧ (acknowledge n e r).pool = r.1.pool
      ∧ (acknowledge n e r).jnl = r.1.jnl ∧ (acknowledge n e r).arc = r.1.arc ∧ (acknowledge n e r).clk = r.1.clk :=
  ⟨by simp [acknowledge], fun m hm => by simp [acknowledge, hm], rfl, rfl, rfl, rfl⟩

theorem doBlock_enters {n : LineNo} {d : DevTime} {s : State} (h1 : (s.line n).main ≠ .outOfService)
    (h2 : (s.line n).main ≠ .blocked .admin) : doBlock n d s = (enterBlocked n .admin d s, .done) := by
  unfold doBlock
  cases hm : (s.line n).main with
  | blocked r => cases r <;> simp_all
  | outOfService => exact absurd hm h1
  | onHook | seizing | collecting | through | suspended => rfl

/-- The acknowledgement leaves what became of a freed sender. -/
theorem FreedGoesOn.acknowledge {k : SenderNo} {n : LineNo} {e : Byte} {s : State} {r : State × RequestOutcome}
    (h : FreedGoesOn false k n s r.1) : FreedGoesOn false k n s (acknowledge n e r) := by
  obtain ⟨-, ho, hp, -, -, hk⟩ := acknowledge_spec n e r
  exact fun hpool harb ha =>
    GoesToHead.congr (h hpool harb ha) (hpool.absent ha) rfl (fun _ _ => rfl) hp ho hk

theorem OtherLinesSame.trans {n : LineNo} {s t u : State} (h : OtherLinesSame n s t) (h' : OtherLinesSame n t u) :
    OtherLinesSame n s u := fun m hm => (h' m hm).trans (h m hm)

/-- BLOCK of a line that is neither OUT_OF_SERVICE nor BLOCKED(ADMIN), acknowledged: the line and the records. -/
theorem block_acknowledged (n : LineNo) (e : Byte) (s : State) :
    (acknowledge n e (enterBlocked n .admin s.now s, .done)).line n
        = { pendingAdopted (blockedLine .admin (s.line n)) with requestEdition := some e, requestOutcome := .done }
      ∧ Recorded (blockRecords n .admin s.now s) s (acknowledge n e (enterBlocked n .admin s.now s, .done)) := by
  obtain ⟨hl, -, -, hj, ha, -⟩ := acknowledge_spec n e (enterBlocked n .admin s.now s, .done)
  obtain ⟨⟨-, hr⟩, hb⟩ := enterBlocked_spec n .admin s.now s
  exact ⟨by rw [hl, hb], hr.congr ⟨rfl, rfl⟩ ⟨hj, ha⟩⟩

theorem inCall_iff (m : MainState) : m.inCall = true ↔ m = .collecting ∨ m = .through ∨ m = .suspended := by
  cases m <;> simp [MainState.inCall]

/-- Settles O49, by the main state of the line. -/
theorem blockAndUnblockRequests : Obligations.BlockAndUnblockRequests := by
  intro n e s hw hnew l answered inCall
  refine ⟨⟨_, whenDue_true (working_iff.2 hw) _ _, ?_⟩, ⟨_, whenDue_true (working_iff.2 hw) _ _, ?_⟩⟩
  all_goals rw [takeRequest_new hnew]
  · refine ⟨fun hm => ?_, fun hm => ?_, fun hm => ?_, fun hm => ?_⟩
    · simp [acknowledge, doBlock, show (s.line n).main = .outOfService from hm, answered, l]
    · simp [acknowledge, doBlock, show (s.line n).main = .blocked .admin from hm, answered, l]
    · have hc : (s.line n).main.inCall = true := (inCall_iff _).2 hm
      rw [doBlock_enters (inCall_ne_outOfService hc) (by rintro h; simp [h, MainState.inCall] at hc)]
      obtain ⟨hl, hr⟩ := block_acknowledged n e s
      obtain ⟨-, ho, hp, -⟩ := acknowledge_spec n e (enterBlocked n .admin s.now s, .done)
      obtain ⟨hgo, hlist, habs⟩ := enterBlocked_inCall .admin s.now hc
      simp only [blockedLine, blockRecords, hc, if_true] at hl hr
      refine ⟨hl, by rwa [hp], fun k => (hgo k).acknowledge, fun ha => ?_, hr⟩
      exact ⟨hp.trans (hlist ha).1, (hlist ha).2.trans ho⟩
    · have hm' : (s.line n).main = .onHook ∨ (s.line n).main = .seizing ∨ (s.line n).main = .blocked .fault := hm
      obtain ⟨hc, h1, h2⟩ : (s.line n).main.inCall = false ∧ (s.line n).main ≠ .outOfService
          ∧ (s.line n).main ≠ .blocked .admin := by
        rcases hm' with h | h | h <;> simp [h, MainState.inCall]
      rw [doBlock_enters h1 h2]
      obtain ⟨hl, hr⟩ := block_acknowledged n e s
      obtain ⟨-, ho, hp, -⟩ := acknowledge_spec n e (enterBlocked n .admin s.now s, .done)
      obtain ⟨hpool, hother⟩ := enterBlocked_outside .admin s.now hc
      simp only [blockedLine, blockRecords, hc, Bool.false_eq_true, if_false, List.nil_append] at hl hr
      exact ⟨hl, hp.trans hpool, hother.trans ho, hr⟩
  · refine ⟨fun hm => ?_, fun hm => ?_⟩
    · simp [acknowledge, doUnblock, show (s.line n).main ≠ .blocked .admin from hm, answered, l]
    · have hd : doUnblock n s.now s = (leaveBlocked n .admin s.now s, .done) := by
        simp [doUnblock, show (s.line n).main = .blocked .admin from hm]
      rw [hd]
      obtain ⟨hl, -, hp, hj, ha, -⟩ := acknowledge_spec n e (leaveBlocked n .admin s.now s, .done)
      obtain ⟨hb, -, -, hpool, hr⟩ := leaveBlocked_spec n .admin s.now s
      exact ⟨by rw [hl, hb]; rfl, hp.trans hpool, hr.congr ⟨rfl, rfl⟩ ⟨hj, ha⟩⟩

/-! ### The adoption of a profile (R14, R34, R68, R172) -/

/-- Settles O26, by the service field and the main state before. -/
theorem adoptionOfAProfile : Obligations.AdoptionOfAProfile := by
  intro p l a
  cases hs : p.inService
  · have ha : a = { restartedLine l with
        adopted := some p, pendingProfile := none, profileOutcome := .adopted, adoptedEdition := l.profileEdition
        estimate := 16 * p.pNom, main := .outOfService } := by
      simp [a, Line.adopt, serviceState, hs, restartedLine]
    simp [ha, restartedLine]
  · by_cases hm : l.main = .outOfService
    · have ha : a = { restartedLine l with
          adopted := some p, pendingProfile := none, profileOutcome := .adopted, adoptedEdition := l.profileEdition
          estimate := 16 * p.pNom, main := .onHook } := by
        simp [a, Line.adopt, serviceState, hs, hm, restartedLine]
      simp [ha, restartedLine, hm]
    · have ha : a = { l with
          adopted := some p, pendingProfile := none, profileOutcome := .adopted, adoptedEdition := l.profileEdition
          estimate := 16 * p.pNom, integrator := min l.integrator p.depth } := by
        simp [a, Line.adopt, serviceState, hs, hm]
      simp [ha, hm]

/-! ### The state after a reset -/

@[simp] theorem reset_line (n : LineNo) : State.reset.line n = Line.reset := by simp [State.line, State.reset]

@[simp] theorem reset_sender (k : SenderNo) : State.reset.sender k = Sender.reset := by simp [State.sender, State.reset]

theorem reset_trainLaws : TrainLaws State.reset := fun n => by simp [Line.reset]

theorem reset_profileLaws : ProfileLaws State.reset := fun n => by simp [Line.reset]

theorem reset_callLaws : CallLaws State.reset := fun n => by simp [Line.reset]

theorem reset_poolLaws : PoolLaws State.reset := by
  refine ⟨fun n k => ?_, fun k => ?_, ?_⟩
  · simp [Line.reset, Sender.reset]
  · simp [Sender.reset]
  · simp [State.reset]

theorem reset_clockLaws : ClockLaws State.reset := by simp [ClockLaws, State.reset]

theorem reset_highwayLaws : HighwayLaws State.reset := by
  refine ⟨fun _ k => .inl (by simp [Sender.reset]), ?_⟩
  simp [State.reset]

/-- The reset state is safe. -/
theorem reset_safe : Safe State.reset := by
  refine ⟨⟨?_, ?_, ?_, fun n => ?_⟩, ?_, ?_, reset_trainLaws, reset_profileLaws, reset_callLaws, reset_poolLaws, ?_,
    .inr rfl, reset_clockLaws, reset_highwayLaws, reset_memory_wf⟩
  · simp [State.reset]
  · simp [State.reset]
  · simp [State.reset]
  · simp [Line.reset]
  · simp [PortLaws, State.reset, AreaController.visiting, AreaController.journalling]
  · simp [AlignmentLaws, State.reset]
  · intro n
    simp [Line.reset]

/-- Settles O8, block by block. -/
theorem resetState : Obligations.ResetState := by
  refine ⟨reset_safe, fun n => ?_, rfl, rfl, rfl, fun k => ?_, rfl, fun n => ?_, ?_⟩
  · simp [Line.reset, Line.path]
  · simp [Sender.reset]
  · simp [State.reset]
  · and_intros <;> rfl

end Sys2Proof.Machine
end

section
/-! SUPPORT. SCAN_FRAME_COMPLETE (O16): what one line's sample leaves of the rest of the part, and what it makes of its own
record, in the bits of the frame. -/

namespace Sys2Proof.Machine

/-! ### One sample among those of a frame (R1) -/

/-- What a sample of line n leaves: every other block, every other line but for grants, every sender in use. -/
def SampleEvent (n : LineNo) (s t : State) : Prop :=
  LineEvent n s t ∧ ∀ k, (s.sender k).state ≠ .free → t.sender k = s.sender k

theorem DialEvent.sampleEvent {n : LineNo} {s t : State} (h : DialEvent n s t) : SampleEvent n s t := ⟨h.event, h.senders⟩

theorem sampleEvent_setLine (n : LineNo) (s : State) (l : Line) : SampleEvent n s (s.setLine n l) :=
  ⟨lineEvent_setLine n s l, fun _ _ => rfl⟩

theorem SampleEvent.trans {n : LineNo} {s t u : State} (h : SampleEvent n s t) (h' : SampleEvent n t u) :
    SampleEvent n s u :=
  ⟨h.1.trans h'.1, fun k hk => by
    have hs := h.2 k hk
    rw [h'.2 k (hs ▸ hk), hs]⟩

theorem sampleEvent_abandonSeizure (n : LineNo) (d : DevTime) (s : State) : SampleEvent n s (abandonSeizure n d s) := by
  obtain ⟨⟨he, -⟩, -, hp, -⟩ := adoptPending_frame n d
    (s.setLine n { s.line n with main := .onHook, sub := .idle, intervalTimer := 0 })
  refine (sampleEvent_setLine n s _).trans ⟨he, fun k _ => ?_⟩
  exact congrArg (·.senders[k]) hp

theorem sampleLine_event (code : LoopCode) (n : LineNo) (d : DevTime) (s : State) :
    SampleEvent n s (sampleLine code n d s) := by
  rcases sampleLine_cases code n d s with h | h | h | ⟨p, hp, h⟩ <;> rw [h]
  · exact (DialEvent.refl n s).sampleEvent
  · exact sampleEvent_setLine n s _
  · exact sampleEvent_setLine n s _
  · refine (sampleEvent_setLine n s ((s.line n).conditioned p code)).trans ?_
    rcases conditioningSample_cases n code d hp with ⟨-, -, h⟩ | h
    · rw [h]
      exact sampleEvent_abandonSeizure n d _
    · exact h.sampleEvent

/-- The samples of a frame reach no other block and no sender in use. -/
theorem sampleLines_frame (frame : BitVec 192) (d : DevTime) (ns : List LineNo) (s : State) :
    OtherBlocksSame s (sampleLines frame d ns s)
      ∧ ∀ k, (s.sender k).state ≠ .free → (sampleLines frame d ns s).sender k = s.sender k := by
  induction ns generalizing s with
  | nil => exact ⟨.refl s, fun _ _ => rfl⟩
  | cons n rest ih =>
    obtain ⟨⟨hb, -⟩, hk⟩ := sampleLine_event (frameCode frame n) n d s
    obtain ⟨hb', hk'⟩ := ih (sampleLine (frameCode frame n) n d s)
    refine ⟨hb.trans hb', fun k h => ?_⟩
    have hs := hk k h
    exact (hk' k (hs ▸ h)).trans hs

/-- The samples of other lines leave a line record but for grants. -/
theorem sampleLines_other (frame : BitVec 192) (d : DevTime) {ns : List LineNo} {n : LineNo} (hn : n ∉ ns) (s : State) :
    SameButSender (s.line n) ((sampleLines frame d ns s).line n) := by
  induction ns generalizing s with
  | nil => exact .refl _
  | cons m rest ih =>
    obtain ⟨hm, hr⟩ := List.ne_and_not_mem_of_not_mem_cons hn
    obtain ⟨⟨-, ho⟩, -⟩ := sampleLine_event (frameCode frame m) m d s
    exact (ho n hm).trans (ih hr _)

/-- A line takes its own sample once, in a state that differs from the first, as regards the line, by grants alone. -/
theorem sampleLines_own (frame : BitVec 192) (d : DevTime) {ns : List LineNo} {n : LineNo} (hn : n ∈ ns) (hd : ns.Nodup)
    (s : State) : ∃ u, SameButSender (s.line n) (u.line n)
      ∧ SameButSender ((sampleLine (frameCode frame n) n d u).line n) ((sampleLines frame d ns s).line n) := by
  induction ns generalizing s with
  | nil => cases hn
  | cons m rest ih =>
    obtain ⟨hm, hr⟩ := List.nodup_cons.1 hd
    rcases List.mem_cons.1 hn with rfl | hn
    · exact ⟨s, .refl _, sampleLines_other frame d hm _⟩
    · obtain ⟨⟨-, ho⟩, -⟩ := sampleLine_event (frameCode frame m) m d s
      obtain ⟨u, h1, h2⟩ := ih hn hr (sampleLine (frameCode frame m) m d s)
      exact ⟨u, (ho n (fun h => hm (h ▸ hn))).trans h1, h2⟩

/-- Lines OUT_OF_SERVICE do nothing with their samples (R3). -/
theorem sampleLines_atRest (frame : BitVec 192) (d : DevTime) {ns : List LineNo} {s : State}
    (h : ∀ m ∈ ns, (s.line m).main = .outOfService) : sampleLines frame d ns s = s := by
  induction ns with
  | nil => rfl
  | cons m rest ih =>
    rw [sampleLines, sampleLine_atRest _ d (.inl (h m (by simp)))]
    exact ih fun j hj => h j (by simp [hj])

theorem OnlyLine.sampled {n : LineNo} {s : State} (h : OnlyLine n s) (code : LoopCode) (d : DevTime) :
    OnlyLine n (sampleLine code n d s) := fun m hm => by
  obtain ⟨⟨-, ho⟩, -⟩ := sampleLine_event code n d s
  rw [ho m hm]
  exact h m hm

/-- With every other line OUT_OF_SERVICE a frame is the sample of the one line. -/
theorem sampleLines_only (frame : BitVec 192) (d : DevTime) {ns : List LineNo} {n : LineNo} (hn : n ∈ ns) (hd : ns.Nodup)
    {s : State} (h : OnlyLine n s) : sampleLines frame d ns s = sampleLine (frameCode frame n) n d s := by
  induction ns with
  | nil => cases hn
  | cons m rest ih =>
    obtain ⟨hm, hr⟩ := List.nodup_cons.1 hd
    rw [sampleLines]
    by_cases hmn : m = n
    · subst hmn
      exact sampleLines_atRest frame d fun j hj => h.sampled _ d j (by rintro rfl; exact hm hj)
    · rw [sampleLine_atRest _ d (.inl (h m hmn))]
      exact ih ((List.mem_cons.1 hn).resolve_left (Ne.symm hmn)) hr

/-! ### The sample in the bits of the frame (R1, R4 to R7) -/

/-- The loop code of a high and a low bit (R1). -/
def codeOf (high low : Bool) : LoopCode :=
  if high then (if low then .fault else .marginal) else (if low then .closed else .opened)

theorem frameCode_eq (frame : BitVec 192) (n : LineNo) :
    frameCode frame n = codeOf (frame.getLsbD (2 * n.val)) (frame.getLsbD (2 * n.val + 1)) := by
  unfold frameCode
  cases frame.getLsbD (2 * n.val) <;> cases frame.getLsbD (2 * n.val + 1) <;> rfl

theorem codeOf_fault (high low : Bool) : codeOf high low = .fault ↔ (high && low) = true := by
  cases high <;> cases low <;> simp [codeOf]

theorem codeOf_marginal (high low : Bool) : codeOf high low = .marginal ↔ high = true ∧ low = false := by
  cases high <;> cases low <;> simp [codeOf]

/-- The integrator rises, falls or stays, by the bits and the marginal policy (R4 to R6). -/
theorem integrate_codeOf (p : Profile) (high low : Bool) (i : Nat) :
    integrate p (codeOf high low) i =
      if (!high && low) || (high && !low && decide (p.marginalPolicy = .asClosed)) then min (i + 1) p.depth
      else if (!high && !low) || (high && !low && decide (p.marginalPolicy = .asOpen)) then i - 1 else i := by
  cases high <;> cases low
  · rfl
  · rfl
  · cases hm : p.marginalPolicy <;> simp [codeOf, integrate, hm]
  · rfl

/-- The transition of a sample (R7). -/
theorem transition_codeOf (p : Profile) (high low : Bool) (loop : LoopState) (i : Nat) :
    transitionOf p (codeOf high low) loop i =
      if (!(high && low) && decide (loop = .opened) && decide (i = p.depth)) = true then .makeStart
      else if (!(high && low) && decide (loop = .closed) && decide (i = 0)) = true then .breakStart else .none := by
  by_cases hf : codeOf high low = .fault
  · simp [transitionOf, hf, (codeOf_fault high low).1 hf]
  · have hb : (high && low) = false := by simpa using mt (codeOf_fault high low).2 hf
    cases loop <;> simp [transitionOf, hf, hb]

/-- A MARGINAL sample raises MARGINAL in COLLECTING or THROUGH, once in a train (R9). -/
theorem raisesMarginal_codeOf (high low : Bool) (l : Line) : raisesMarginal (codeOf high low) l = true ↔
    high = true ∧ low = false ∧ (l.main = .collecting ∨ l.main = .through) ∧ l.sub ≠ .idle ∧ l.marginalRaised = false := by
  have hd : l.main.dialling = true ↔ l.main = .collecting ∨ l.main = .through := by
    cases l.main <;> simp [MainState.dialling]
  simp [raisesMarginal, codeOf_marginal, hd]
  tauto

/-! ### The line record after its sample -/

/-- The record of a sample without a transition: what it raises recorded, a trapped set suspending the line. -/
def quietLine (p : Profile) (code : LoopCode) (l : Line) : Line :=
  afterSet p true (marginalSet code l) (l.conditioned p code)

theorem afterSet_sameButSender {l l' : Line} (p : Profile) (b : Bool) (set : CondSet) (h : SameButSender l l') :
    SameButSender (afterSet p b set l) (afterSet p b set l') := by
  rw [h]
  unfold afterSet
  simp only
  split <;> rfl

theorem quietLine_sameButSender {l l' : Line} (p : Profile) (code : LoopCode) (h : SameButSender l l') :
    SameButSender (quietLine p code l) (quietLine p code l') := by
  have hc : SameButSender (l.conditioned p code) (l'.conditioned p code) := by rw [h]; rfl
  have hm : marginalSet code l' = marginalSet code l := by rw [h]; rfl
  unfold quietLine
  rw [hm]
  exact afterSet_sameButSender p true _ hc

/-- An empty set changes nothing. -/
theorem afterSet_empty (p : Profile) (b : Bool) (l : Line) : afterSet p b 0 l = l := by
  simp [afterSet]

theorem traps_iff {p : Profile} {l : Line} {set : CondSet} (hp : l.adopted = some p) :
    l.traps set = true ↔ ¬ (set &&& p.trapMask = 0) := by
  simp [Line.traps, Line.trapped, Line.trapMask, hp]

/-- A sample without a transition. -/
theorem sampleLine_quiet {n : LineNo} {p : Profile} {code : LoopCode} {s : State} (d : DevTime)
    (hc : (s.line n).main.conditioning = true) (hp : (s.line n).adopted = some p) (hs : (s.line n).skipSamples = 0)
    (ht : (conditionLine p code (s.line n)).2 = .none) :
    (sampleLine code n d s).line n = quietLine p code (s.line n)
      ∧ Recorded (setRecords n d p (marginalSet code (s.line n)) (s.line n).main) s (sampleLine code n d s)
      ∧ ListAfterSet p (marginalSet code (s.line n)) n s (sampleLine code n d s) := by
  rw [sampleLine_conditioning code d hc hp hs, conditioningSample_quiet d ht]
  have hp' : ((s.setLine n ((s.line n).conditioned p code)).line n).adopted = some p := by
    simpa [Line.conditioned, conditionLine] using hp
  obtain ⟨⟨-, hr⟩, hl⟩ := raiseSet_afterSet n true (marginalSet code (s.line n)) d
    (s.setLine n ((s.line n).conditioned p code)) hp'
  obtain ⟨-, -, hpool⟩ := raiseSet_spec n true (marginalSet code (s.line n)) d
    (s.setLine n ((s.line n).conditioned p code))
  refine ⟨by rw [hl, line_setLine_self]; rfl, ?_, ?_⟩
  · simpa [Line.conditioned, conditionLine] using hr.congr (s' := s) ⟨rfl, rfl⟩ ⟨rfl, rfl⟩
  · unfold ListAfterSet LeavesTheList
    rw [hpool]
    by_cases h0 : marginalSet code (s.line n) &&& p.trapMask = 0
    · rw [if_pos h0, if_neg (by simpa using mt (traps_iff hp').1 (not_not.2 h0))]
      rfl
    · rw [if_neg h0, if_pos ((traps_iff hp').2 h0)]
      rfl

/-- A sample that abandons no seizure leaves the loop conditioning and the profile as the sample made them (R4 to R8). -/
theorem sampleLine_conditioned {n : LineNo} {p : Profile} {code : LoopCode} {s : State} (d : DevTime)
    (hc : (s.line n).main.conditioning = true) (hp : (s.line n).adopted = some p) (hs : (s.line n).skipSamples = 0)
    (ht : (s.line n).main ≠ .seizing ∨ (conditionLine p code (s.line n)).2 ≠ .breakStart) :
    DialStep ((s.line n).conditioned p code) ((sampleLine code n d s).line n) := by
  rw [sampleLine_conditioning code d hc hp hs]
  rcases conditioningSample_cases n code d hp with ⟨hm, hb, -⟩ | h
  · exact absurd hb (ht.resolve_left (by simpa using hm))
  · simpa using h.line

/-- The clear run and its comparison, in the bits of the frame (R11, R12). -/
theorem clearSample_codeOf {p : Profile} {l : Line} (high low : Bool) (hp : l.adopted = some p) :
    let run := if high && low then 0 else min (l.clearRun + 1) 65535
    l.clearSample (codeOf high low)
      = { l with clearRun := run, runTestMet := !(high && low) && decide (max p.faultPersistence 1 ≤ run) } := by
  by_cases hf : codeOf high low = .fault
  · simp [Line.clearSample, hf, (codeOf_fault high low).1 hf]
  · have hb : (high && low) = false := by simpa using mt (codeOf_fault high low).2 hf
    simp [Line.clearSample, hf, hb, Line.clearPersistence, hp, bump, Config.countLimit]

theorem clearSample_sameButSender {l l' : Line} (code : LoopCode) (h : SameButSender l l') :
    SameButSender (l.clearSample code) (l'.clearSample code) := by
  rw [h]
  unfold Line.clearSample
  split <;> rfl

/-- The record that a sample leaves, in the bits of the frame and the transition they bring (R4 to R9). -/
theorem conditioned_codeOf (p : Profile) (high low : Bool) (l : Line) :
    let code := codeOf high low
    let tr := (conditionLine p code l).2
    let run := if high && low then min (l.faultRun + 1) 65535 else 0
    l.conditioned p code = { l with
      integrator := integrate p code l.integrator
      faultRun := run
      phaseTimer := if tr = .none then min (l.phaseTimer + 1) 65535 else 0
      intervalTimer := min (l.intervalTimer + 1) 65535
      loop := if tr = .makeStart then .closed else if tr = .breakStart then .opened else l.loop
      runTestMet := (high && low) && decide (p.faultPersistence ≠ 0 ∧ p.faultPersistence ≤ run)
      marginalRaised := l.marginalRaised || raisesMarginal code l } := by
  intro code tr run
  have hl : (l.conditioned p code).loop
      = if tr = .makeStart then .closed else if tr = .breakStart then .opened else l.loop := by
    show (match tr with
      | .makeStart => LoopState.closed
      | .breakStart => .opened
      | .none => l.loop) = _
    cases tr <;> rfl
  rw [← hl]
  by_cases hf : code = .fault
  · simp [Line.conditioned, conditionLine, hf, (codeOf_fault high low).1 hf, run, bump, Config.countLimit, tr]
  · have hb : (high && low) = false := by simpa using mt (codeOf_fault high low).2 hf
    simp [Line.conditioned, conditionLine, hf, hb, run, bump, Config.countLimit, tr]

/-- The transition of a sample, in the bits of the frame (R7). -/
theorem conditionLine_codeOf (p : Profile) (high low : Bool) (l : Line) :
    (conditionLine p (codeOf high low) l).2 =
      if (!(high && low) && decide (l.loop = .opened)
          && decide (integrate p (codeOf high low) l.integrator = p.depth)) = true then .makeStart
      else if (!(high && low) && decide (l.loop = .closed)
          && decide (integrate p (codeOf high low) l.integrator = 0)) = true then .breakStart else .none :=
  transition_codeOf p high low l.loop _

/-! ### The sample of a line that a frame's other samples have reached by grants alone -/

section Sampled

variable {n : LineNo} {l : Line} {p : Profile} {u : State} (code : LoopCode) (d : DevTime) (hu : SameButSender l (u.line n))
include hu

theorem sampled_atRest (h : l.main = .outOfService ∨ l.main = .blocked .admin) :
    SameButSender l ((sampleLine code n d u).line n) := by
  have hm : (u.line n).main = l.main := by rw [hu]
  rwa [sampleLine_atRest code d (by rwa [hm])]

theorem sampled_faultBlocked (h : l.main = .blocked .fault) :
    SameButSender (l.clearSample code) ((sampleLine code n d u).line n) := by
  have hm : (u.line n).main = l.main := by rw [hu]
  rw [sampleLine_faultBlocked code d (hm.trans h), line_setLine_self]
  exact clearSample_sameButSender code hu

variable (hc : l.main.conditioning = true) (hp : l.adopted = some p)
include hc hp

theorem sampled_skip (h : l.skipSamples ≠ 0) : SameButSender l.skipSample ((sampleLine code n d u).line n) := by
  obtain ⟨hm, ha, hs⟩ : (u.line n).main = l.main ∧ (u.line n).adopted = l.adopted
      ∧ (u.line n).skipSamples = l.skipSamples := by rw [hu]; exact ⟨rfl, rfl, rfl⟩
  rw [sampleLine_skip code d (by rwa [hm]) (ha.trans hp) (by rwa [hs]), line_setLine_self, hu]
  rfl

variable (hs : l.skipSamples = 0)
include hs

theorem sampled_quiet (h : (conditionLine p code l).2 = .none) :
    SameButSender (quietLine p code l) ((sampleLine code n d u).line n) := by
  obtain ⟨hm, ha, hk, ht⟩ : (u.line n).main = l.main ∧ (u.line n).adopted = l.adopted
      ∧ (u.line n).skipSamples = l.skipSamples ∧ (conditionLine p code (u.line n)).2 = (conditionLine p code l).2 := by
    rw [hu]; exact ⟨rfl, rfl, rfl, rfl⟩
  obtain ⟨hl, -⟩ := sampleLine_quiet d (by rwa [hm]) (ha.trans hp) (hk.trans hs) (ht.trans h)
  rw [hl]
  exact quietLine_sameButSender p code hu

theorem sampled_conditioned (h : l.main ≠ .seizing ∨ (conditionLine p code l).2 ≠ .breakStart) :
    DialStep (l.conditioned p code) ((sampleLine code n d u).line n) := by
  obtain ⟨hm, ha, hk, ht⟩ : (u.line n).main = l.main ∧ (u.line n).adopted = l.adopted
      ∧ (u.line n).skipSamples = l.skipSamples ∧ (conditionLine p code (u.line n)).2 = (conditionLine p code l).2 := by
    rw [hu]; exact ⟨rfl, rfl, rfl, rfl⟩
  have hcond : SameButSender (l.conditioned p code) ((u.line n).conditioned p code) := by rw [hu]; rfl
  exact (dialStep_sameButSender hcond).trans
    (sampleLine_conditioned d (by rwa [hm]) (ha.trans hp) (hk.trans hs) (by rwa [hm, ht]))

end Sampled

/-- SCAN_FRAME_COMPLETE in a frame that shifts: what it leaves, and each line's record and, where no other line is in
service, its records, by the sample of that line alone. -/
theorem scanFrameComplete_spec (frame : BitVec 192) {s : State} (hw : s.part.phase = .working)
    (hshift : s.scan.shifting = true) :
    ∃ t, exec (.scanFrameComplete frame) s = .next t
      ∧ OtherBlocksSame { s with scan := s.scan.finish s.now } t
      ∧ (∀ k, (s.sender k).state ≠ .free → t.sender k = s.sender k)
      ∧ ∀ n : LineNo,
        let code := codeOf (frame.getLsbD (2 * n.val)) (frame.getLsbD (2 * n.val + 1))
        (∃ u, SameButSender (s.line n) (u.line n)
            ∧ SameButSender ((sampleLine code n s.scan.strobedAt u).line n) (t.line n))
          ∧ (OnlyLine n s → t = sampleLine code n s.scan.strobedAt { s with scan := s.scan.finish s.now }) := by
  obtain ⟨hb, hk⟩ := sampleLines_frame frame s.scan.strobedAt allLines { s with scan := s.scan.finish s.now }
  have hexec : exec (.scanFrameComplete frame) s = .next (sampleLines frame s.scan.strobedAt allLines
      { s with scan := s.scan.finish s.now }) := whenDue_true (by simp [working_iff.2 hw, hshift]) _ _
  refine ⟨_, hexec, hb, hk, fun n => ?_⟩
  have hn : n ∈ allLines := List.mem_finRange n
  have hd : allLines.Nodup := List.nodup_finRange 96
  rw [← frameCode_eq]
  obtain ⟨u, hu⟩ := sampleLines_own frame s.scan.strobedAt hn hd { s with scan := s.scan.finish s.now }
  exact ⟨⟨u, hu⟩, fun h => sampleLines_only frame s.scan.strobedAt hn hd h⟩

/-- What a quiet sample of the only line in service makes of the records and the wait list. -/
theorem sampleLine_only_quiet {n : LineNo} {p : Profile} {code : LoopCode} {s : State} (d : DevTime) (scan : ScanPort)
    (hc : (s.line n).main.conditioning = true) (hp : (s.line n).adopted = some p) (hs : (s.line n).skipSamples = 0)
    (ht : (conditionLine p code (s.line n)).2 = .none) :
    Recorded (setRecords n d p (marginalSet code (s.line n)) (s.line n).main) s (sampleLine code n d { s with scan := scan })
      ∧ ListAfterSet p (marginalSet code (s.line n)) n s (sampleLine code n d { s with scan := scan }) := by
  obtain ⟨-, hr, hl⟩ := sampleLine_quiet (s := { s with scan := scan }) d hc hp hs ht
  exact ⟨hr.congr ⟨rfl, rfl⟩ ⟨rfl, rfl⟩, hl⟩

/-- Settles O16, line by line, by its main state and by the transition of its sample. -/
theorem scanFrameSamples : Obligations.ScanFrameSamples := by
  intro frame s hw hshift
  obtain ⟨t, hexec, ⟨-, hpart, hregs, hscan, hplan, hhwy, hclk, hmem⟩, hk, hline⟩ :=
    scanFrameComplete_spec frame hw hshift
  refine ⟨t, hexec, hpart, hregs, hplan, hhwy, hclk, hmem, hscan, hk, fun n => ?_⟩
  obtain ⟨⟨u, hu, ht⟩, honly⟩ := hline n
  intro l high low fault
  refine ⟨fun hrest => (sampled_atRest _ _ hu hrest).trans ht, fun p hp => ⟨?_, ?_, ?_⟩⟩
  · intro hm run
    have h := sampled_faultBlocked (codeOf high low) s.scan.strobedAt hu hm
    rw [clearSample_codeOf high low hp] at h
    exact h.trans ht
  · exact fun hc hs => (sampled_skip _ _ hu hc hp hs).trans ht
  intro hc hs raises lowers i run makes breaks marginal sampled
  have hi : integrate p (codeOf high low) l.integrator = i := integrate_codeOf p high low l.integrator
  have htr : (conditionLine p (codeOf high low) l).2
      = if makes = true then .makeStart else if breaks = true then .breakStart else .none := by
    rw [conditionLine_codeOf, hi]
  have hmarg : raisesMarginal (codeOf high low) l = true ↔ marginal := raisesMarginal_codeOf high low l
  have hcond := conditioned_codeOf p high low l
  simp only [hi, htr] at hcond
  have hquiet : makes = false → breaks = false → (conditionLine p (codeOf high low) l).2 = .none := fun h1 h2 => by
    rw [htr, h1, h2]; rfl
  refine ⟨fun hseize => ?_, fun h1 h2 hnot => ?_, fun h1 h2 hyes => ?_⟩
  · have hd := (sampled_conditioned (codeOf high low) s.scan.strobedAt hu hc hp hs (hseize.imp_right fun hb => by
      rw [htr, hb]
      split <;> simp)).trans (dialStep_sameButSender ht)
    rw [hcond] at hd
    refine ⟨hd.integrator, hd.faultRun, hd.loop.trans ?_, hd.phaseTimer.trans ?_, hd.runTestMet, hd.clearRun, hd.adopted⟩
    · cases makes <;> cases breaks <;> rfl
    · cases makes <;> cases breaks <;> rfl
  · have hmf : raisesMarginal (codeOf high low) l = false := by simpa using mt hmarg.1 hnot
    have hset : marginalSet (codeOf high low) l = 0 := by simp [marginalSet, hmf, Cond.when]
    have hq := sampled_quiet (codeOf high low) s.scan.strobedAt hu hc hp hs (hquiet h1 h2)
    rw [quietLine, hset, afterSet_empty, hcond, h1, h2, hmf, Bool.or_false] at hq
    refine ⟨hq.trans ht, fun ho => ?_⟩
    obtain ⟨hr, -⟩ := sampleLine_only_quiet s.scan.strobedAt (s.scan.finish s.now) hc hp hs (hquiet h1 h2)
    rw [hset] at hr
    simpa [setRecords, honly ho] using hr
  · have hmt : raisesMarginal (codeOf high low) l = true := hmarg.2 hyes
    have hset : marginalSet (codeOf high low) l = 0x020 := by simp [marginalSet, hmt, Cond.when, Cond.marginal]
    have hq := sampled_quiet (codeOf high low) s.scan.strobedAt hu hc hp hs (hquiet h1 h2)
    rw [quietLine, hset, hcond, h1, h2, hmt, Bool.or_true] at hq
    refine ⟨hq.trans ht, fun ho => ?_⟩
    obtain ⟨hr, hl⟩ := sampleLine_only_quiet s.scan.strobedAt (s.scan.finish s.now) hc hp hs (hquiet h1 h2)
    rw [hset] at hr hl
    rw [honly ho]
    exact ⟨hl, hr⟩

end Sys2Proof.Machine
end

section
/-! SUPPORT. Frames of a locked clock (O12, O15): the handover edge, filled frames, and the loss of the reference. -/

namespace Sys2Proof.Machine

/-! ### Frame starts under a clock that has counted on -/

/-- A frame start keeps the clock but for the frame, device time and the divider window (R204). -/
theorem startFrame_clock (s : State) :
    (startFrame s).clk.state = s.clk.state ∧ (startFrame s).clk.divider = s.clk.divider
      ∧ (startFrame s).clk.lockedSince = s.clk.lockedSince ∧ (startFrame s).clk.missing = s.clk.missing
      ∧ (startFrame s).clk.spacing = s.clk.spacing ∧ (startFrame s).clk.losses = s.clk.losses := by
  unfold startFrame
  by_cases h : (s.clk.frame + 1) % 4 = 0
  · simp only [h, if_true]
    rw [(tickBoundary_spec _).2.2.2.2.2.2.2]
    simp
  · simp [h]

/-- A tick boundary reads the clock in device time alone. -/
theorem TickTaken.of_clock {s t : State} {c : Clock} (h : TickTaken { s with clk := c } t) (hn : c.now = s.clk.now)
    (hp : c.settle.pendingTime = s.clk.settle.pendingTime) : TickTaken s t := by
  obtain ⟨h1, h2⟩ := h
  exact ⟨h1.trans (by rw [← hp, State.now, State.now, ← hn]), h2⟩

theorem settle_pendingTime_congr {c c' : Clock} (h1 : c'.rolloverDue = c.rolloverDue)
    (h2 : c'.pendingTime = c.pendingTime) : c'.settle.pendingTime = c.settle.pendingTime := by
  rw [settle_pendingTime, settle_pendingTime, h1, h2]

/-- A frame start leaves device time where it is no tick boundary (R204, R211). -/
theorem startFrame_inside_now (s : State) (h : (s.clk.frame + 1) % 4 ≠ 0) : (startFrame s).now = s.now := by
  simp only [startFrame, h, if_false]
  exact now_congr rfl rfl rfl rfl

/-- The registers, the plan, the reset state and memory through any frame start. -/
theorem startFrame_blocks (s : State) : (startFrame s).plan = s.plan ∧ (startFrame s).regs = s.regs
    ∧ (startFrame s).part = s.part ∧ (startFrame s).mem = s.mem ∧ (startFrame s).pending = s.pending := by
  by_cases h : (s.clk.frame + 1) % 4 = 0
  · exact (startFrame_boundary s h).2
  · exact (startFrame_inside s h).2

/-! ### The handover edge (R207) -/

/-- The handover edge takes the clock into LOCKED. -/
theorem xfsEdge_handover {cycle : Nat} {s : State} (hw : s.part.phase = .working) (hq : s.clk.state = .qualifying)
    (hdue : s.clk.lockDue = true) (hf : s.clk.frame = 3) (hage : s.clk.frameAge ≤ cycle) (hmin : 2483 ≤ cycle)
    (hmax : cycle ≤ 5120) (hs1 : 2483 ≤ s.clk.spacing + (cycle - s.clk.frameAge))
    (hs2 : s.clk.spacing + (cycle - s.clk.frameAge) ≤ 2637) :
    exec (.xfsEdge cycle) s = .next (enterLocked { s with clk := s.clk.passTo cycle }) := by
  have hheld : s.clk.heldOpen = true := by simp [Clock.heldOpen, hq, hdue, hf]
  have hheld' : (s.clk.passTo cycle).heldOpen = true := hheld
  have hlim : cycle ≤ s.clk.frameLimit := by simpa [Clock.frameLimit, hq, hheld, Config.handoverLimit] using hmax
  have hspace : wellSpaced (s.clk.passTo cycle).spacing = true := by
    simp [wellSpaced, Clock.passTo, Config.minSpacing, Config.maxSpacing, hs1, hs2]
  have hedge : takeEdge { s with clk := s.clk.passTo cycle } = enterLocked { s with clk := s.clk.passTo cycle } := by
    have hstate : (s.clk.passTo cycle).state = .qualifying := hq
    have hcycle : Config.minSpacing ≤ (s.clk.passTo cycle).frameAge := hmin
    simp [takeEdge, qualifyEdge, hstate, hspace, hheld', hcycle]
  rw [← hedge]
  exact whenDue_true (by simp [working_iff.2 hw, hage, hlim]) _ _

/-- A sender as the clock enters LOCKED (R141). -/
theorem regapSender_eq (x : Sender) : regapSender x = if x.state = .paused then
    { x with state := .gap, timer := 0, begun := false, burstDue := false, resendMark := true } else x := rfl

/-- The clock's marks at entry to LOCKED: the divider window open, the lock no longer due (R207). -/
def Clock.lockMarks (c : Clock) : Clock :=
  { c with lockedSince := true, missing := 0, lockDue := false, spacing := 0, window := some ⟨0, 0⟩ }

/-- The state at entry to LOCKED before its frame 0 is composed. -/
def State.lockedBoundary (s : State) : State :=
  changeClock .locked { startFrame s with clk := (startFrame s).clk.lockMarks }

theorem enterLocked_eq (s : State) : enterLocked s = composeFrame s.lockedBoundary := rfl

/-- What the entry to LOCKED makes of the state that its tick boundary leaves (R141, R209). -/
theorem lockedBoundary_spec (s : State) :
    s.lockedBoundary.clk = { (startFrame s).clk.lockMarks with state := .locked }
      ∧ s.lockedBoundary.now = (startFrame s).now
      ∧ Recorded [⟨none, (startFrame s).now, .clock .locked⟩] (startFrame s) s.lockedBoundary
      ∧ s.lockedBoundary.regs = { (startFrame s).regs with attention := (startFrame s).regs.attention ||| 8 }
      ∧ s.lockedBoundary.lines = (startFrame s).lines ∧ s.lockedBoundary.scan = (startFrame s).scan
      ∧ s.lockedBoundary.plan = (startFrame s).plan ∧ s.lockedBoundary.hwy = (startFrame s).hwy
      ∧ s.lockedBoundary.mem = (startFrame s).mem ∧ s.lockedBoundary.part = (startFrame s).part
      ∧ s.lockedBoundary.pool.waitList = (startFrame s).pool.waitList
      ∧ s.lockedBoundary.pool.joins = (startFrame s).pool.joins
      ∧ ∀ k, s.lockedBoundary.sender k = regapSender ((startFrame s).sender k) := by
  obtain ⟨hclk, hrec, hregs, hlines, hscan, hplan, hhwy, hmem, hpart, -, hwait, hjoins, hsend⟩ :=
    changeClock_spec .locked { startFrame s with clk := (startFrame s).clk.lockMarks }
  have hmarks : State.now { startFrame s with clk := (startFrame s).clk.lockMarks } = (startFrame s).now :=
    now_congr rfl rfl rfl rfl
  have hnow : s.lockedBoundary.now = (startFrame s).now := by
    unfold State.now State.lockedBoundary
    rw [hclk]
    exact now_congr rfl rfl rfl rfl
  rw [hmarks] at hrec
  exact ⟨hclk, hnow, hrec.congr ⟨rfl, rfl⟩ ⟨rfl, rfl⟩, hregs, hlines, hscan, hplan, hhwy, hmem, hpart, hwait, hjoins,
    hsend⟩

/-- A sender outside ON is as it was when the frame is driven (R152). -/
theorem DrivenSame.sender_silent {s t : State} (h : DrivenSame s t) {k : SenderNo} (hk : (s.sender k).state ≠ .on) :
    t.sender k = s.sender k := by
  obtain ⟨-, -, -, -, -, -, -, -, hs⟩ := h
  exact (hs k).2 (.inl fun hsound => hk hsound.1)

/-- A line record whose blocks agree. -/
theorem line_congr {s t : State} (h : t.lines = s.lines) (n : LineNo) : t.line n = s.line n := by simp [State.line, h]

/-- Settles O12: the boundary is u, the entry to LOCKED v, and the driven frame the state reached. -/
theorem handoverEdgeLocks : Obligations.HandoverEdgeLocks := by
  intro cycle s hw hq hdue hf hage hmin hmax hs1 hs2
  refine ⟨_, xfsEdge_handover hw hq hdue hf hage hmin hmax hs1 hs2, ?_⟩
  rw [enterLocked_eq]
  have hframe : ((s.clk.passTo cycle).frame + 1) % 4 = 0 := by simp [Clock.passTo, hf]
  obtain ⟨htick, hplan, hregs, hpart, hmem, -⟩ := startFrame_boundary { s with clk := s.clk.passTo cycle } hframe
  have htick' := htick.of_clock (now_congr rfl rfl rfl rfl) (settle_pendingTime_congr rfl rfl)
  obtain ⟨hfr, hfa, hslot, hdelay, -, hdelayed⟩ := startFrame_frame { s with clk := s.clk.passTo cycle }
  obtain ⟨-, hdiv, -⟩ := startFrame_clock { s with clk := s.clk.passTo cycle }
  obtain ⟨vclk, vnow, vrec, vregs, vlines, vscan, vplan, vhwy, vmem, vpart, vwait, vjoins, vsend⟩ :=
    lockedBoundary_spec { s with clk := s.clk.passTo cycle }
  generalize startFrame { s with clk := s.clk.passTo cycle } = u at *
  generalize State.lockedBoundary { s with clk := s.clk.passTo cycle } = v at *
  obtain ⟨hdriven, -, tpart, tregs, tplan, tclk, tmem, thwy⟩ := composeFrame_spec v
  generalize composeFrame v = t at *
  obtain ⟨unow, -, ulines, usend, -⟩ := id htick'
  obtain ⟨tlines, -, -, -, tnow, -, -, txtxd, -⟩ := id hdriven
  have hpaused : ∀ k, (v.sender k).state ≠ .on → t.sender k = v.sender k := fun k => hdriven.sender_silent
  have htnow : t.now = u.now := tnow.trans vnow
  have hkept : ∀ k, (u.sender k).state ≠ .paused → (u.sender k).state ≠ .on → t.sender k = u.sender k := fun k h1 h2 => by
    have hv : v.sender k = u.sender k := by rw [vsend, regapSender_eq, if_neg h1]
    rw [hpaused k (hv ▸ h2), hv]
  have hstate : ∀ k, (u.sender k).state = (s.sender k).state ∧ (u.sender k).line = (s.sender k).line := fun k => by
    rw [usend]; exact ⟨rfl, rfl⟩
  have hregap : ∀ k, (s.sender k).state = .paused → t.sender k = { u.sender k with
      state := .gap, timer := 0, begun := false, burstDue := false, resendMark := true } := fun k hk => by
    have hv := vsend k
    rw [regapSender_eq, if_pos ((hstate k).1.trans hk)] at hv
    rw [hpaused k (by rw [hv]; simp), hv]
  have hhwy : t.hwy = { u.hwy with xtxd := t.hwy.xtxd } := by rw [thwy, vhwy]
  refine ⟨by rw [tclk, vclk], by rw [tclk, vclk]; exact hfr.trans hframe, by rw [tclk, vclk]; exact hfa,
    by rw [tclk, vclk]; rfl, by rw [tclk, vclk]; rfl, by rw [tclk, vclk]; rfl, by rw [tclk, vclk]; rfl,
    by rw [tclk, vclk]; rfl, by rw [tclk, vclk]; exact hdiv, htnow.trans unow, fun k hk => ?_, fun k hk => ?_, fun n => ?_,
    by rw [hhwy]; exact hslot, by rw [hhwy]; exact hdelay, fun n => ?_, fun n => ?_, ?_, by rw [tpart, vpart, hpart],
    by rw [tplan, vplan, hplan], by rw [tmem, vmem, hmem],
    u, v, htick', hdelay, vlines, vscan, vnow, by rw [vhwy], vwait, vjoins, by rwa [htnow], fun k => by
      rw [vsend, regapSender_eq], hdriven⟩
  · rw [hregap k hk]
    exact ⟨rfl, rfl, rfl, (hstate k).2⟩
  · have hu := (hstate k).1.trans hk
    rw [hkept k (by simp [hu]) (by simp [hu])]
    exact ⟨hu, (hstate k).2⟩
  · rw [txtxd n]
    exact Option.some_ne_none _
  · rw [hhwy]
    exact hdelayed n
  · rw [line_congr tlines, line_congr vlines]
    exact ulines n
  · rw [tregs, vregs, hregs]

/-! ### Filled frames (R208) -/

/-- A locked clock as its frame ends: the missing count, and the frame's cycles in the divider window (R208, R210). -/
def State.lockedFrameEnd (missing : Nat) (s : State) : State :=
  { s with clk := { s.clk with
    missing := missing
    spacing := 0
    window := s.clk.window.map fun w => { w with cycles := w.cycles + s.clk.frameAge } } }

theorem nextLockedFrame_eq (missing : Nat) (s : State) : nextLockedFrame missing s = startFrame (s.lockedFrameEnd missing) :=
  rfl

/-- What the next frame of a locked clock is, from whatever cycle of the last. -/
theorem nextLockedFrame_spec (missing : Nat) (s : State) :
    (nextLockedFrame missing s).clk.state = s.clk.state
      ∧ (nextLockedFrame missing s).clk.frame = (s.clk.frame + 1) % 4 ∧ (nextLockedFrame missing s).clk.frameAge = 0
      ∧ (nextLockedFrame missing s).clk.missing = missing ∧ (nextLockedFrame missing s).clk.spacing = 0
      ∧ (nextLockedFrame missing s).clk.divider = s.clk.divider
      ∧ (nextLockedFrame missing s).clk.lockedSince = s.clk.lockedSince
      ∧ (nextLockedFrame missing s).clk.losses = s.clk.losses := by
  rw [nextLockedFrame_eq]
  obtain ⟨hf, ha, -⟩ := startFrame_frame (s.lockedFrameEnd missing)
  obtain ⟨hst, hd, hl, hm, hsp, hlo⟩ := startFrame_clock (s.lockedFrameEnd missing)
  exact ⟨hst, hf, ha, hm, hsp, hd, hl, hlo⟩

/-- What a driven frame composed in one state says of another that agrees in the blocks a frame reads. -/
theorem DrivenSame.congr {s s' t : State} (h : DrivenSame s' t) (hl : s'.lines = s.lines) (hp : s'.pool = s.pool)
    (hsc : s'.scan = s.scan) (hj : s'.jnl = s.jnl) (ha : s'.arc = s.arc) (hn : s'.now = s.now)
    (hd : s'.hwy.delay = s.hwy.delay) : DrivenSame s t := by
  have hk : ∀ k, s'.sender k = s.sender k := fun k => by simp [State.sender, hp]
  have hline := line_congr hl
  have hout : ∀ n, outputSample s' n = outputSample s n := fun n => by
    simp only [outputSample, slotSample, delayedSample, toneOutput, hk, hline, hd]
  obtain ⟨h1, h2, h3, h4, h5, h6, h7, h8, h9⟩ := h
  refine ⟨h1.trans hl, h2.trans hsc, h3.trans hj, h4.trans ha, h5.trans hn, by rw [h6, hp], by rw [h7, hp],
    fun n => by rw [h8, hout], fun k => ?_⟩
  simpa only [Sounds, hk, hline] using h9 k

/-- A filled frame as it is about to start: the clock at cycle 2637, one more edge missing (R208). -/
def State.filling (s : State) : State :=
  State.lockedFrameEnd (s.clk.missing + 1) { s with clk := s.clk.passTo Config.maxSpacing }

/-- The state at the start of a filled frame, before it is composed or loses the reference. -/
def State.filled (s : State) : State :=
  nextLockedFrame (s.clk.missing + 1) { s with clk := s.clk.passTo Config.maxSpacing }

theorem filled_eq (s : State) : s.filled = startFrame s.filling := rfl

/-- A filled frame starts as any other: its number and marks, the highway, the blocks it does not reach, and the 2637
cycles of the frame before it in the divider window (R208, R210). -/
theorem filled_spec (s : State) :
    (s.filled.clk.state = s.clk.state ∧ s.filled.clk.frame = (s.clk.frame + 1) % 4 ∧ s.filled.clk.frameAge = 0
        ∧ s.filled.clk.missing = s.clk.missing + 1 ∧ s.filled.clk.spacing = 0 ∧ s.filled.clk.divider = s.clk.divider
        ∧ s.filled.clk.lockedSince = s.clk.lockedSince ∧ s.filled.clk.losses = s.clk.losses)
      ∧ (s.filled.hwy.slot = 0 ∧ s.filled.hwy.delay = s.hwy.delay ∧ (∀ n : LineNo, s.filled.hwy.xtxd[n] = none)
        ∧ ∀ n : LineNo, s.filled.hwy.delayed[n] = s.hwy.delay[n].headD 0)
      ∧ (s.filled.part = s.part ∧ s.filled.regs = s.regs ∧ s.filled.plan = s.plan ∧ s.filled.mem = s.mem)
      ∧ WindowCounted 2637 s s.filled := by
  obtain ⟨hplan, hregs, hpart, hmem, -⟩ := startFrame_blocks s.filling
  obtain ⟨-, -, hslot, hdelay, hx, hdelayed⟩ := startFrame_frame s.filling
  rw [← filled_eq] at *
  exact ⟨nextLockedFrame_spec _ _, ⟨hslot, hdelay, fun n => by rw [hx]; simp, hdelayed⟩, ⟨hpart, hregs, hplan, hmem⟩,
    nextLockedFrame_window (s.clk.missing + 1) { s with clk := s.clk.passTo Config.maxSpacing }⟩

/-- Where it is frame 0 of a tick, a filled frame takes the tick boundary whole (R204). -/
theorem filled_boundary {s : State} (h : (s.clk.frame + 1) % 4 = 0) : TickTaken s s.filled := by
  rw [filled_eq]
  obtain ⟨htick, -⟩ := startFrame_boundary s.filling h
  exact TickTaken.of_clock (s := s) htick (now_congr rfl rfl rfl rfl) (settle_pendingTime_congr rfl rfl)

/-- Elsewhere it leaves what a tick paces, and device time. -/
theorem filled_inside {s : State} (h : (s.clk.frame + 1) % 4 ≠ 0) : TickBlocksSame s s.filled ∧ s.filled.now = s.now := by
  rw [filled_eq]
  obtain ⟨hb, -⟩ := startFrame_inside s.filling h
  have hn : s.filling.now = s.now := now_congr rfl rfl rfl rfl
  exact ⟨hb, (startFrame_inside_now s.filling h).trans hn⟩

/-- What the divider window holds when a filled frame loses the reference (R210; assumption log 25). -/
theorem WindowCounted.done {cycles : Nat} {s t : State} (h : WindowCounted cycles s t) :
    t.clk.windowDone = match s.clk.window with
      | some w => if (s.clk.frame + 1) % 4 = 0 ∧ 255 ≤ w.ticks then some (w.cycles + cycles) else s.clk.windowDone
      | none => s.clk.windowDone := by
  obtain ⟨hout, hin⟩ := h
  cases hw : s.clk.window with
  | none => exact (hout (.inr hw)).2
  | some w =>
    by_cases hf : (s.clk.frame + 1) % 4 = 0
    · obtain ⟨hopen, hfull⟩ := hin hf w hw
      by_cases ht : 255 ≤ w.ticks
      · simpa [hf, ht] using (hfull ht).2
      · simpa [hf, ht] using (hopen (by omega)).2
    · simpa [hf] using (hout (.inl hf)).2

/-- A filled frame of a locked clock, by the missing count (R208). -/
theorem filledFrame_exec {s : State} (hw : s.part.phase = .working) (hl : s.clk.state = .locked) :
    (s.clk.missing ≤ 2 → exec .filledFrame s = .next (composeFrame s.filled))
      ∧ (s.clk.missing = 3 → exec .filledFrame s = .next (loseReference (expiriesBeforeLoss s.filled))) := by
  have hdue : (s.working && s.clk.state == .locked) = true := by simp [working_iff.2 hw, hl]
  have hexec : exec .filledFrame s = .next (if 4 ≤ s.clk.missing + 1 then loseReference (expiriesBeforeLoss s.filled)
      else composeFrame s.filled) := whenDue_true hdue _ _
  exact ⟨fun h => by rw [hexec, if_neg (by omega)], fun h => by rw [hexec, if_pos (by omega)]⟩

/-- The expiries before a loss reach neither the clock, the highway, the registers nor the Scan Port (R140). -/
theorem expiriesBeforeLoss_blocks {s : State} (h : ∀ n : LineNo, s.hwy.xtxd[n] = none) :
    OtherBlocksSame s (expiriesBeforeLoss s) := by
  have hd : s.hwy.driven = false := by simpa [Highway.driven] using h 0
  unfold expiriesBeforeLoss
  split
  · exact takeAllExpiries_undriven _ hd
  · exact .refl s

/-- The loss of the reference (R140, R156, R208, R209). -/
theorem loseReference_spec {s : State} (hl : s.clk.state = .locked) :
    (loseReference s).clk = { s.clk with state := .holdover, window := none, losses := s.clk.losses + 1 }
      ∧ (loseReference s).now = s.now ∧ Recorded [⟨none, s.now, .clock .holdover⟩] s (loseReference s)
      ∧ (loseReference s).regs = { s.regs with attention := s.regs.attention ||| 8 }
      ∧ (loseReference s).lines = s.lines ∧ (loseReference s).scan = s.scan ∧ (loseReference s).plan = s.plan
      ∧ (loseReference s).hwy = s.hwy ∧ (loseReference s).mem = s.mem ∧ (loseReference s).part = s.part
      ∧ (loseReference s).pool.waitList = s.pool.waitList ∧ (loseReference s).pool.joins = s.pool.joins
      ∧ ∀ k, (loseReference s).sender k = pauseSender (s.sender k) := by
  obtain ⟨hclk, hrec, hregs, hlines, hscan, hplan, hhwy, hmem, hpart, -, hwait, hjoins, hsend⟩ :=
    changeClock_spec .holdover { s with clk := { s.clk with window := none, losses := s.clk.losses + 1 } }
  have hdis : State.now { s with clk := { s.clk with window := none, losses := s.clk.losses + 1 } } = s.now :=
    now_congr rfl rfl rfl rfl
  have hnow : (loseReference s).now = s.now := by
    unfold State.now loseReference
    rw [hclk]
    exact now_congr rfl rfl rfl rfl
  rw [hdis] at hrec
  refine ⟨hclk, hnow, hrec.congr ⟨rfl, rfl⟩ ⟨rfl, rfl⟩, hregs, hlines, hscan, hplan, hhwy, hmem, hpart, hwait, hjoins,
    fun k => ?_⟩
  have := hsend k
  rwa [if_neg (by simp), if_pos (show s.clk.state = .locked from hl)] at this

/-- What every filled frame leaves in common, driven or not, of a state t that follows the frame's start (R208). -/
theorem filled_common {s t : State} (hclk : t.clk = { s.filled.clk with
      state := t.clk.state, window := t.clk.window, losses := t.clk.losses })
    (hhwy : t.hwy = { s.filled.hwy with xtxd := t.hwy.xtxd }) (hpart : t.part = s.filled.part)
    (hplan : t.plan = s.filled.plan) (hmem : t.mem = s.filled.mem) :
    t.clk.frame = (s.clk.frame + 1) % 4 ∧ t.clk.frameAge = 0 ∧ t.clk.missing = s.clk.missing + 1
      ∧ t.clk.spacing = 0 ∧ t.clk.divider = s.clk.divider ∧ t.clk.lockedSince = s.clk.lockedSince
      ∧ t.hwy.slot = 0 ∧ t.hwy.delay = s.hwy.delay ∧ t.part = s.part ∧ t.plan = s.plan ∧ t.mem = s.mem
      ∧ ∀ n : LineNo, t.hwy.delayed[n] = s.hwy.delay[n].headD 0 := by
  obtain ⟨⟨-, hfr, hfa, hms, hsp, hdiv, hls, -⟩, ⟨hslot, hdelay, -, hdelayed⟩, ⟨hp, -, hpl, hm⟩, -⟩ := filled_spec s
  rw [hclk, hhwy]
  exact ⟨hfr, hfa, hms, hsp, hdiv, hls, hslot, hdelay, hpart.trans hp, hplan.trans hpl, hmem.trans hm, hdelayed⟩

/-- A driven filled frame: the window counted, and the frame driven after the boundary that it may be (R145, R204, R210). -/
theorem filled_driven (s : State) :
    WindowCounted 2637 s (composeFrame s.filled)
      ∧ if (s.clk.frame + 1) % 4 = 0 then
          ∃ u, TickTaken s u ∧ u.hwy.delay = s.hwy.delay ∧ DrivenSame u (composeFrame s.filled)
        else DrivenSame s (composeFrame s.filled) := by
  obtain ⟨-, ⟨-, hdelay, -⟩, -, hwin⟩ := filled_spec s
  obtain ⟨hdriven, -⟩ := composeFrame_spec s.filled
  refine ⟨hwin, ?_⟩
  split
  · rename_i hf
    exact ⟨s.filled, filled_boundary hf, hdelay, hdriven⟩
  · rename_i hf
    obtain ⟨⟨hl, hp, hsc, hj, ha⟩, hn⟩ := filled_inside hf
    exact hdriven.congr hl hp hsc hj ha hn hdelay

/-- The expiries before a loss are those of the boundary, if the frame is one, and none otherwise (R140, R204). -/
theorem filled_expiries {s : State} (hl : s.clk.state = .locked) :
    if (s.clk.frame + 1) % 4 = 0 then
      ∃ u, TickTaken s u ∧ u.part = s.part ∧ u.clk.state = .locked ∧ u.clk.frame = 0
        ∧ (∀ n : LineNo, u.hwy.xtxd[n] = none)
        ∧ Taken ((Config.expiriesFirst s.clk.losses).flatMap fun k => [.burstExpiry k, .gapExpiry k]) u
          (expiriesBeforeLoss s.filled)
    else TickBlocksSame s (expiriesBeforeLoss s.filled) ∧ (expiriesBeforeLoss s.filled).now = s.now := by
  obtain ⟨⟨hst, hfr, -, -, -, -, -, hlo⟩, ⟨-, -, hx, -⟩, ⟨hpart, -⟩, -⟩ := filled_spec s
  split
  · rename_i hf
    refine ⟨s.filled, filled_boundary hf, hpart, hst.trans hl, hfr.trans hf, hx, ?_⟩
    have ht := takeAllExpiries_taken (Config.expiriesFirst s.filled.clk.losses) s.filled
    simpa [expiriesBeforeLoss, hfr, hf, hlo] using ht
  · rename_i hf
    have hsame : expiriesBeforeLoss s.filled = s.filled := by simp [expiriesBeforeLoss, hfr, hf]
    rw [hsame]
    exact filled_inside hf

/-- Settles O15: up to three missing edges drive the frame, the fourth loses the reference. -/
theorem filledFrames : Obligations.FilledFrames := by
  intro s hw hlock hmiss
  obtain ⟨⟨hst, -⟩, ⟨-, -, hx, -⟩, ⟨-, hregs, -⟩, hwin⟩ := filled_spec s
  obtain ⟨hdrive, hlose⟩ := filledFrame_exec hw hlock
  by_cases h2 : s.clk.missing ≤ 2
  · obtain ⟨hframe, hage, hcnt, hsp, hdiv, hsince, hslot, hdelay, hpart, hplan, hmem, hdelayed⟩ :=
      filled_common (s := s) (t := composeFrame s.filled) rfl rfl rfl rfl rfl
    obtain ⟨hcount, hdriven⟩ := filled_driven s
    exact ⟨_, hdrive h2, hframe, hage, hcnt, hsp, hdiv, hsince, hslot, hdelay, hpart, hplan, hmem, hdelayed,
      fun _ => ⟨hst.trans hlock, hregs, hcount, hdriven⟩, fun h => absurd h2 (by omega)⟩
  · obtain ⟨-, vpart, vregs, -, vplan, vhwy, vclk, vmem⟩ := expiriesBeforeLoss_blocks hx
    obtain ⟨tclk, tnow, trec, tregs, tlines, tscan, tplan, thwy, tmem, tpart, twait, tjoins, tsend⟩ :=
      loseReference_spec (s := expiriesBeforeLoss s.filled) (by rw [vclk, hst, hlock])
    rw [vclk] at tclk
    rw [vhwy] at thwy
    obtain ⟨hframe, hage, hcnt, hsp, hdiv, hsince, hslot, hdelay, hpart, hplan, hmem, hdelayed⟩ :=
      filled_common (s := s) (t := loseReference (expiriesBeforeLoss s.filled)) (by rw [tclk]) (by rw [thwy])
        (tpart.trans vpart) (tplan.trans vplan) (tmem.trans vmem)
    refine ⟨_, hlose (by omega), hframe, hage, hcnt, hsp, hdiv, hsince, hslot, hdelay, hpart, hplan, hmem, hdelayed,
      fun h => absurd h h2, fun _ => ?_⟩
    exact ⟨by rw [tclk], by rw [tclk], by rw [tclk]; exact hwin.done, by rw [tregs, vregs, hregs],
      fun n => by rw [thwy, hx], expiriesBeforeLoss s.filled, filled_expiries hlock, tnow, tscan, tlines, twait,
      tjoins, by rwa [tnow], tsend⟩

end Sys2Proof.Machine
end

section
/-! SUPPORT. The laws of trains and of calls, line by line (R17 to R19, R40, R54, R55, R97, R98): what an event of a line
may do to the record without breaking them. -/

namespace Sys2Proof.Machine

/-! ### Main states -/

theorem dialling_iff {m : MainState} : m.dialling = true ↔ m = .collecting ∨ m = .through := by
  cases m <;> simp [MainState.dialling]

theorem inCall_of_dialling {m : MainState} (h : m = .collecting ∨ m = .through) : m.inCall = true :=
  (inCall_iff m).2 (h.imp_right .inl)

theorem conditioning_of_inCall {m : MainState} (h : m.inCall = true) : m.conditioning = true := by
  rcases (inCall_iff m).1 h with rfl | rfl | rfl <;> rfl

/-! ### The laws of one line record -/

/-- What TrainLaws says of one line record. -/
def Line.TrainOk (l : Line) : Prop :=
  (l.sub ≠ .idle → l.main = .collecting ∨ l.main = .through)
    ∧ (l.sub = .idle → l.pulses = 0 ∧ l.pulseBreak = 0 ∧ l.reopened = false ∧ l.threshold = none)
    ∧ (l.sub ≠ .idle → 1 ≤ l.pulses ∧ l.pulses ≤ 15)
    ∧ (l.sub = .make → l.reopened = false ∧ l.threshold ≠ none)
    ∧ (l.sub = .brk → (l.reopened = true ↔ l.threshold = none))

/-- What CallLaws says of one line record. -/
def Line.CallOk (l : Line) : Prop :=
  (l.main.inCall = false → l.store = [] ∧ l.digits = [] ∧ l.attached = none ∧ l.cls = .normal)
    ∧ (l.completionTimer ≠ none → l.main = .collecting ∧ l.digits ≠ [])
    ∧ (l.resumeTarget ≠ none ↔ l.main = .suspended)
    ∧ (l.digits ≠ [] → l.main = .collecting ∨ l.resumeTarget = some .collecting)

theorem callLaws_iff (s : State) : CallLaws s ↔ ∀ n, (s.line n).CallOk := Iff.rfl

/-- The line is one that should wait: COLLECTING or THROUGH with keys and no sender (R127). -/
def Line.Wants (l : Line) : Prop :=
  (l.main = .collecting ∨ l.main = .through) ∧ l.store ≠ [] ∧ l.attached = none

theorem Line.Wants.inCall {l : Line} (h : l.Wants) : l.main.inCall = true := inCall_of_dialling h.1

theorem Line.TrainOk.sameButSender {l l' : Line} (h : l.TrainOk) (hs : SameButSender l l') : l'.TrainOk := by
  rw [hs]
  exact h

/-- A grant to a line in a call keeps the law (R131). -/
theorem Line.CallOk.attach {l : Line} (h : l.CallOk) (hc : l.main.inCall = true) (a : Option SenderNo) :
    ({ l with attached := a } : Line).CallOk :=
  ⟨fun hm => absurd (hc.symm.trans hm) (by simp), h.2⟩

/-! ### Changes of a line record that keep both laws -/

/-- A change of a line record by an event that neither frees its sender nor lets it cease to wait. -/
structure LineKept (l l' : Line) : Prop where
  train : l.TrainOk → l'.TrainOk
  calls : l.CallOk → l'.CallOk
  attached : l'.attached = l.attached
  waits : l.Wants → l'.Wants ∧ l'.cls = l.cls

theorem LineKept.trans {l l' l'' : Line} (h : LineKept l l') (h' : LineKept l' l'') : LineKept l l'' where
  train ht := h'.train (h.train ht)
  calls hc := h'.calls (h.calls hc)
  attached := h'.attached.trans h.attached
  waits hw := by
    obtain ⟨hw', hc⟩ := h.waits hw
    obtain ⟨hw'', hc'⟩ := h'.waits hw'
    exact ⟨hw'', hc'.trans hc⟩

/-- The fields of a line record that belong to its call are as they were. -/
structure CallSame (l l' : Line) : Prop where
  main : l'.main = l.main := by rfl
  resumeTarget : l'.resumeTarget = l.resumeTarget := by rfl
  cls : l'.cls = l.cls := by rfl
  digits : l'.digits = l.digits := by rfl
  completionTimer : l'.completionTimer = l.completionTimer := by rfl
  store : l'.store = l.store := by rfl
  attached : l'.attached = l.attached := by rfl

theorem CallSame.wants {l l' : Line} (h : CallSame l l') : l'.Wants ↔ l.Wants := by
  simp only [Line.Wants, h.main, h.store, h.attached]

theorem CallSame.kept {l l' : Line} (h : CallSame l l') (ht : l.TrainOk → l'.TrainOk) : LineKept l l' where
  train := ht
  calls hc := by
    unfold Line.CallOk
    rwa [h.main, h.resumeTarget, h.cls, h.digits, h.completionTimer, h.store, h.attached]
  attached := h.attached
  waits hw := ⟨h.wants.2 hw, h.cls⟩

/-- A train that is given up leaves the train fields idle (R40). -/
theorem dropTrain_trainOk (l : Line) : l.dropTrain.TrainOk := by simp [Line.TrainOk, Line.dropTrain]

/-- In a call the store may change, so long as it is not emptied. -/
theorem lineKept_store {l : Line} {ks : List StoredKey} (hc : l.main.inCall = true) (hk : l.store ≠ [] → ks ≠ []) :
    LineKept l { l with store := ks } where
  train := id
  calls h := ⟨fun hm => absurd (hc.symm.trans hm) (by simp), h.2⟩
  attached := rfl
  waits hw := ⟨⟨hw.1, hk hw.2.1, hw.2.2⟩, rfl⟩

theorem offer_ne_nil {ks store : List StoredKey} (h : store ≠ []) : offer ks store ≠ [] := by simp [offer, h]

theorem restartTimer_eq (l : Line) : l.restartTimer = { l with completionTimer := l.restartTimer.completionTimer } := rfl

/-- A digit joins the call digits in COLLECTING alone (R97, R98). -/
theorem lineKept_collect (key : Option Key) (l : Line) : LineKept l (l.collect key) := by
  unfold Line.collect
  split
  · split
    · rename_i k hm
      rw [restartTimer_eq]
      exact {
        train := id
        calls := fun ⟨h1, _, h3, _⟩ =>
          ⟨fun h => absurd h (by simp [hm, MainState.inCall]), fun _ => ⟨hm, by simp⟩, h3, fun _ => .inl hm⟩
        attached := rfl
        waits := fun hw => ⟨hw, rfl⟩ }
    · exact CallSame.kept {} id
  · exact CallSame.kept {} id

/-- A completed number takes the line from COLLECTING to THROUGH, its digits gone (R25). -/
theorem lineKept_enterThrough {l : Line} (hm : l.main = .collecting) : LineKept l l.enterThrough where
  train := fun ⟨_, h2⟩ => ⟨fun _ => .inr rfl, h2⟩
  calls := fun ⟨_, _, h3, _⟩ => by
    have hr : l.resumeTarget = none := by simpa [hm] using h3
    simp [Line.CallOk, Line.enterThrough, MainState.inCall, hr]
  attached := rfl
  waits hw := ⟨⟨.inr rfl, hw.2⟩, rfl⟩

/-- A flash may start the call anew (R26). -/
theorem lineKept_flashRestart (p : Profile) (l : Line) : LineKept l (l.flashRestart p) := by
  unfold Line.flashRestart
  split
  · rename_i hm
    exact {
      train := fun _ => by simp [Line.TrainOk, Line.dropTrain]
      calls := fun ⟨_, _, h3, _⟩ => by
        have hr : l.resumeTarget = none := by simpa [hm.1] using h3
        simp [Line.CallOk, Line.dropTrain, MainState.inCall, hr]
      attached := rfl
      waits := fun hw => ⟨⟨.inl rfl, hw.2⟩, rfl⟩ }
  · exact CallSame.kept {} id

/-- A suspended line does not wait, so its return takes it out of no list (R29). -/
theorem lineKept_resumeTo {t : ResumeTarget} {l : Line} (hm : l.main = .suspended) (ht : l.resumeTarget = some t) :
    LineKept l (l.resumeTo t) where
  train := fun ⟨h1, h2⟩ => by
    have hs : l.sub = .idle := by simpa [hm] using h1
    unfold Line.resumeTo
    cases t with
    | collecting =>
      simp only
      split
      · exact ⟨fun _ => .inl rfl, h2⟩
      · exact ⟨fun _ => .inl rfl, h2⟩
    | through => exact ⟨fun _ => .inr rfl, h2⟩
  calls := fun ⟨_, h2, _, h4⟩ => by
    have hc : l.completionTimer = none := by simpa [hm] using h2
    unfold Line.resumeTo
    cases t with
    | collecting =>
      by_cases hd : l.digits = []
      · simp [Line.CallOk, hd, hc, MainState.inCall]
      · simp [Line.CallOk, hd, Line.restartTimer, MainState.inCall]
    | through =>
      have hd : l.digits = [] := by simpa [hm, ht] using h4
      simp [Line.CallOk, hd, hc, MainState.inCall]
  attached := by
    unfold Line.resumeTo
    cases t with
    | collecting =>
      simp only
      split <;> rfl
    | through => rfl
  waits hw := by
    have := hw.inCall
    rcases hw.1 with h | h <;> simp [hm] at h

/-! ### Changes outside a call, and the entry to one -/

/-- A change of a line outside calls that leaves it outside: no key, no digit, no sender, and no train in progress. -/
structure OutsideKept (l l' : Line) : Prop where
  before : l.main.inCall = false := by assumption
  after : l'.main.inCall = false := by rfl
  sub : l'.sub = l.sub ∨ l'.sub = .idle := by exact .inl rfl
  pulses : l'.pulses = l.pulses := by rfl
  pulseBreak : l'.pulseBreak = l.pulseBreak := by rfl
  reopened : l'.reopened = l.reopened := by rfl
  threshold : l'.threshold = l.threshold := by rfl
  resumeTarget : l'.resumeTarget = l.resumeTarget := by rfl
  cls : l'.cls = l.cls := by rfl
  digits : l'.digits = l.digits := by rfl
  completionTimer : l'.completionTimer = l.completionTimer := by rfl
  store : l'.store = l.store := by rfl
  attached : l'.attached = l.attached := by rfl

theorem not_dialling_of_outside {m : MainState} (h : m.inCall = false) : ¬ (m = .collecting ∨ m = .through) :=
  fun hd => absurd ((inCall_of_dialling hd).symm.trans h) (by simp)

theorem OutsideKept.kept {l l' : Line} (h : OutsideKept l l') : LineKept l l' where
  train := fun ⟨h1, h2, _⟩ => by
    have hs : l.sub = .idle := by
      by_contra hs
      exact not_dialling_of_outside h.before (h1 hs)
    have hs' : l'.sub = .idle := h.sub.elim (fun e => e.trans hs) id
    obtain ⟨a, b, c, d⟩ := h2 hs
    simp [Line.TrainOk, hs', h.pulses, h.pulseBreak, h.reopened, h.threshold, a, b, c, d]
  calls := fun ⟨h1, h2, h3, _⟩ => by
    obtain ⟨hst, hd, ha, hc⟩ := h1 h.before
    have hm : ∀ m : MainState, m.inCall = false → m ≠ .collecting ∧ m ≠ .suspended := fun m hm => by
      constructor <;> rintro rfl <;> cases hm
    have ht : l.completionTimer = none := by
      by_contra hn
      exact (hm _ h.before).1 (h2 hn).1
    have hr : l.resumeTarget = none := by
      by_contra hn
      exact (hm _ h.before).2 (h3.1 hn)
    simp [Line.CallOk, h.store, h.digits, h.attached, h.cls, h.completionTimer, h.resumeTarget, hst, hd, ha, hc, ht, hr,
      (hm _ h.after).2]
  attached := h.attached
  waits hw := absurd hw.1 (not_dialling_of_outside h.before)

theorem OutsideKept.not_wants {l l' : Line} (h : OutsideKept l l') : ¬ l'.Wants :=
  fun hw => not_dialling_of_outside h.after hw.1

/-- A seizure enters the call with neither keys nor digits (R21). -/
theorem lineKept_seize {l : Line} (hm : l.main = .seizing) : LineKept l l.seize where
  train := fun _ => by simp [Line.TrainOk, Line.seize, Line.dropTrain]
  calls := fun ⟨_, _, h3, _⟩ => by
    have hr : l.resumeTarget = none := by simpa [hm] using h3
    simp [Line.CallOk, Line.seize, Line.dropTrain, MainState.inCall, hr]
  attached := rfl
  waits hw := by rcases hw.1 with h | h <;> simp [hm] at h

theorem seize_not_wants {l : Line} (hm : l.main = .seizing) (h : l.CallOk) : ¬ l.seize.Wants := fun hw =>
  hw.2.1 (h.1 (by simp [hm, MainState.inCall])).1

/-- An adoption outside calls stays outside (R34). -/
theorem outsideKept_adopt (p : Profile) {l : Line} (h : l.main.inCall = false) : OutsideKept l (l.adopt p) := by
  have hm : (serviceState p.inService l.main).inCall = false := by
    unfold serviceState
    split
    · split
      · rfl
      · exact h
    · rfl
  unfold Line.adopt
  simp only
  split
  · exact { after := hm }
  · exact { after := hm }

/-! ### Suspension and release -/

theorem suspend_trainOk (target : ResumeTarget) (l : Line) : (l.suspend target).TrainOk := by
  simp [Line.TrainOk, Line.suspend, Line.dropTrain]

/-- A suspended line keeps its call digits when it was COLLECTING, and had none otherwise (R27, R97). -/
theorem suspend_callOk {l : Line} (h : l.CallOk) : (l.suspend (resumeTargetOf l.main)).CallOk := by
  obtain ⟨-, -, h3, h4⟩ := h
  have hd : l.digits ≠ [] → resumeTargetOf l.main = .collecting := fun hd => by
    unfold resumeTargetOf
    rw [if_neg]
    intro hm
    have hr : l.resumeTarget = none := by simpa [hm] using h3
    simpa [hm, hr] using h4 hd
  simpa [Line.CallOk, Line.suspend, Line.dropTrain, MainState.inCall] using hd

theorem releasedLine_trainOk (m : MainState) (l : Line) : (releasedLine m l).TrainOk := by
  simp [Line.TrainOk, releasedLine, trainIdle]

theorem releasedLine_callOk {m : MainState} (h : m.inCall = false) (l : Line) : (releasedLine m l).CallOk := by
  have hs : m ≠ .suspended := by rintro rfl; cases h
  simp [Line.CallOk, releasedLine, trainIdle, hs]

end Sys2Proof.Machine
end

section
/-! SUPPORT. The laws of senders and of the wait list (R126, R130, R131) through the operations of the pool: what a grant, a
join, a departure, a class raise and a freed sender make of them. -/

namespace Sys2Proof.Machine

/-! ### The two halves of PoolLaws -/

/-- Senders and lines are attached one to one, and a sender is FREE exactly when it has no line. -/
def SendersMatch (s : State) : Prop :=
  (∀ n k, (s.line n).attached = some k ↔ (s.sender k).line = some n)
    ∧ ∀ k, (s.sender k).state = .free ↔ (s.sender k).line = none

/-- Entry a stands before entry b in the order of class and joining time (R126). -/
def WaitOrder (line : LineNo → Line) (a b : WaitEntry) : Prop :=
  ((line a.line).cls = .urgent ∧ (line b.line).cls = .normal)
    ∨ ((line a.line).cls = (line b.line).cls ∧ a.joined < b.joined)

/-- A list that names each line once, in order, and only lines that should wait; joins counts the joins so far. -/
structure ListOk (line : LineNo → Line) (list : List WaitEntry) (joins : Nat) : Prop where
  lines : (list.map (·.line)).Nodup
  times : (list.map (·.joined)).Nodup
  wants : ∀ e ∈ list, (line e.line).Wants ∧ e.joined < joins
  order : list.Pairwise (WaitOrder line)

theorem poolLaws_iff (s : State) : PoolLaws s ↔ SendersMatch s ∧ ListOk s.line s.pool.waitList s.pool.joins := by
  constructor
  · rintro ⟨h1, h2, h3, h4, h5, h6⟩
    refine ⟨⟨h1, h2⟩, h3, h4, fun e he => ?_, h6⟩
    obtain ⟨a, b, c, d⟩ := h5 e he
    exact ⟨⟨a, b, c⟩, d⟩
  · rintro ⟨⟨h1, h2⟩, h3, h4, h5, h6⟩
    refine ⟨h1, h2, h3, h4, fun e he => ?_, h6⟩
    obtain ⟨⟨a, b, c⟩, d⟩ := h5 e he
    exact ⟨a, b, c, d⟩

/-- Line n is in the wait list. -/
def State.Waits (s : State) (n : LineNo) : Prop := ∃ e ∈ s.pool.waitList, e.line = n

theorem waiting_iff {s : State} {n : LineNo} : s.waiting n = true ↔ s.Waits n := by simp [State.waiting, State.Waits]

theorem waitLaw_iff (s : State) : WaitLaw s ↔ ∀ n, (s.line n).Wants → s.Waits n :=
  ⟨fun h n ⟨a, b, c⟩ => h n a b c, fun h n a b c => h n ⟨a, b, c⟩⟩

theorem ListOk.line_wants {line : LineNo → Line} {list : List WaitEntry} {joins : Nat} (h : ListOk line list joins)
    {e : WaitEntry} (he : e ∈ list) : (line e.line).Wants := (h.wants e he).1

/-- Entries may go, and line records change, so long as those that stay want to wait in the same class. -/
theorem ListOk.sublist {line line' : LineNo → Line} {list list' : List WaitEntry} {joins : Nat}
    (h : ListOk line list joins) (hs : list'.Sublist list)
    (hl : ∀ e ∈ list', (line' e.line).Wants ∧ (line' e.line).cls = (line e.line).cls) : ListOk line' list' joins where
  lines := h.lines.sublist (hs.map _)
  times := h.times.sublist (hs.map _)
  wants e he := ⟨(hl e he).1, (h.wants e (hs.subset he)).2⟩
  order := (h.order.sublist hs).imp_of_mem fun {a b} ha hb hab => by
    simpa only [WaitOrder, (hl a ha).2, (hl b hb).2] using hab

/-- A change of one line record under which it goes on wanting to wait, in its class. -/
theorem ListOk.setLine {s : State} {n : LineNo} {l : Line} (h : ListOk s.line s.pool.waitList s.pool.joins)
    (hw : (s.line n).Wants → l.Wants ∧ l.cls = (s.line n).cls) :
    ListOk (s.setLine n l).line s.pool.waitList s.pool.joins :=
  h.sublist (List.Sublist.refl _) fun e he => by
    by_cases hn : e.line = n
    · simpa [hn] using hw (hn ▸ h.line_wants he)
    · simpa [hn] using h.line_wants he

/-- A line leaves the list; its record may be any (R128). -/
theorem ListOk.leave {s : State} {n : LineNo} (l : Line) (h : ListOk s.line s.pool.waitList s.pool.joins) :
    ListOk (s.setLine n l).line (s.pool.waitList.filter fun e => e.line != n) s.pool.joins :=
  h.sublist List.filter_sublist fun e he => by
    obtain ⟨he, hn⟩ := List.mem_filter.1 he
    have hn : e.line ≠ n := by simpa using hn
    simpa [hn] using h.line_wants he

/-! ### The order of the list (R126) -/

theorem WaitOrder.trans {line : LineNo → Line} {a b c : WaitEntry} (h : WaitOrder line a b) (h' : WaitOrder line b c) :
    WaitOrder line a c := by
  rcases h with ⟨h1, h2⟩ | ⟨h1, h2⟩ <;> rcases h' with ⟨h3, h4⟩ | ⟨h3, h4⟩
  · simp [h2] at h3
  · exact .inl ⟨h1, h3 ▸ h2⟩
  · exact .inl ⟨h1.trans h3, h4⟩
  · exact .inr ⟨h1.trans h3, h2.trans h4⟩

theorem waitsBefore_iff (s : State) (a b : WaitEntry) : waitsBefore s a b = true ↔ WaitOrder s.line a b := by
  unfold waitsBefore State.urgent WaitOrder
  cases (s.line a.line).cls <;> cases (s.line b.line).cls <;> simp

/-- Of two entries of different joining times, one stands before the other. -/
theorem WaitOrder.of_not {line : LineNo → Line} {a b : WaitEntry} (h : ¬ WaitOrder line a b)
    (hj : a.joined ≠ b.joined) : WaitOrder line b a := by
  unfold WaitOrder at *
  cases ha : (line a.line).cls <;> cases hb : (line b.line).cls <;> simp [ha, hb] at h ⊢ <;> omega

/-- In a list in order, an entry is put behind those it does not precede and before all others (R126). -/
theorem insertWait_ordered {s : State} {list : List WaitEntry} (h : list.Pairwise (WaitOrder s.line)) (e : WaitEntry) :
    ∃ before after, insertWait s e list = before ++ e :: after ∧ before ++ after = list
      ∧ (∀ f ∈ before, ¬ WaitOrder s.line e f) ∧ ∀ f ∈ after, WaitOrder s.line e f := by
  obtain ⟨before, after, he, hlist, hb, ha⟩ := insertWait_place s e list
  refine ⟨before, after, he, hlist, fun f hf => ?_, fun f hf => ?_⟩
  · rw [← waitsBefore_iff, hb f hf]
    simp
  · subst hlist
    obtain ⟨-, hoa, -⟩ := List.pairwise_append.1 h
    cases after with
    | nil => cases hf
    | cons g rest =>
      have hg : WaitOrder s.line e g := (waitsBefore_iff s e g).1 (ha g rfl)
      rcases List.mem_cons.1 hf with rfl | hf
      · exact hg
      · exact hg.trans ((List.pairwise_cons.1 hoa).1 f hf)

/-- An entry of a new line and a new joining time that is put at its place keeps the order (R126, R127, R129). -/
theorem ListOk.insert {s : State} {list : List WaitEntry} {joins : Nat} (h : ListOk s.line list joins) {e : WaitEntry}
    (hl : ∀ f ∈ list, f.line ≠ e.line) (ht : ∀ f ∈ list, f.joined ≠ e.joined) (hw : (s.line e.line).Wants)
    (hj : e.joined < joins) : ListOk s.line (insertWait s e list) joins := by
  obtain ⟨before, after, he, hlist, hb, hea⟩ := insertWait_ordered h.order e
  have hperm : (before ++ e :: after).Perm (e :: list) := hlist ▸ List.perm_middle
  rw [he]
  subst hlist
  obtain ⟨hob, hoa, hba⟩ := List.pairwise_append.1 h.order
  have hbe : ∀ f ∈ before, WaitOrder s.line f e := fun f hf => WaitOrder.of_not (hb f hf) (ht f (by simp [hf])).symm
  refine ⟨?_, ?_, fun f hf => ?_, ?_⟩
  · rw [(hperm.map _).nodup_iff, List.map_cons, List.nodup_cons]
    exact ⟨fun hm => by obtain ⟨f, hf, h⟩ := List.mem_map.1 hm; exact hl f hf h, h.lines⟩
  · rw [(hperm.map _).nodup_iff, List.map_cons, List.nodup_cons]
    exact ⟨fun hm => by obtain ⟨f, hf, h⟩ := List.mem_map.1 hm; exact ht f hf h, h.times⟩
  · rcases List.mem_cons.1 (hperm.mem_iff.1 hf) with rfl | hf
    · exact ⟨hw, hj⟩
    · exact h.wants f hf
  · refine List.pairwise_append.2 ⟨hob, List.pairwise_cons.2 ⟨hea, hoa⟩, fun f hf g hg => ?_⟩
    rcases List.mem_cons.1 hg with rfl | hg
    · exact hbe f hf
    · exact hba f hf g hg

/-! ### Joins and class raises -/

theorem insertWait_mem {s : State} {e f : WaitEntry} {list : List WaitEntry} :
    f ∈ insertWait s e list ↔ f = e ∨ f ∈ list := by
  obtain ⟨before, after, he, hlist, -⟩ := insertWait_place s e list
  rw [he, ← hlist]
  simp
  tauto

theorem ListOk.mono {line : LineNo → Line} {list : List WaitEntry} {joins joins' : Nat} (h : ListOk line list joins)
    (hj : joins ≤ joins') : ListOk line list joins' :=
  { h with wants := fun e he => ⟨(h.wants e he).1, (h.wants e he).2.trans_le hj⟩ }

/-- A join of a line that should wait and does not (R127). -/
theorem listOk_joinWait {s : State} {n : LineNo} (h : ListOk s.line s.pool.waitList s.pool.joins) (hw : (s.line n).Wants)
    (hn : ¬ s.Waits n) : ListOk (joinWait n s).line (joinWait n s).pool.waitList (joinWait n s).pool.joins := by
  refine ListOk.insert (s := s) (e := ⟨n, s.pool.joins⟩) (h.mono (Nat.le_succ _)) (fun f hf hl => hn ⟨f, hf, hl⟩)
    (fun f hf => ?_) hw (Nat.lt_succ_self _)
  have := (h.wants f hf).2
  simp only
  omega

/-- In a list without repetition the joining times tell the entries apart. -/
theorem ListOk.eq_of_joined {line : LineNo → Line} {list : List WaitEntry} {joins : Nat} (h : ListOk line list joins)
    {e f : WaitEntry} (he : e ∈ list) (hf : f ∈ list) (hj : e.joined = f.joined) : e = f :=
  List.inj_on_of_nodup_map h.times he hf hj

/-- The requeue of a line that waits: its entry is put anew among the others (R129). -/
theorem requeue_waits {n : LineNo} {s : State} {e : WaitEntry} (hd : (s.pool.waitList.map (·.line)).Nodup)
    (he : e ∈ s.pool.waitList) (hn : e.line = n) :
    requeue n s = { s with pool := { s.pool with
      waitList := insertWait s e (s.pool.waitList.filter fun f => f.line != n) } } := by
  unfold requeue
  cases hf : s.pool.waitList.find? fun e => e.line == n with
  | none => exact absurd hn (by simpa using List.find?_eq_none.1 hf e he)
  | some f =>
    have hfn : f.line = n := by simpa using List.find?_some hf
    rw [List.inj_on_of_nodup_map hd (List.mem_of_find?_eq_some hf) he (hfn.trans hn.symm)]

/-- The requeue of a line that does not wait does nothing. -/
theorem requeue_absent {n : LineNo} {s : State} (h : ∀ e ∈ s.pool.waitList, e.line ≠ n) : requeue n s = s := by
  have hf : (s.pool.waitList.find? fun e => e.line == n) = none := List.find?_eq_none.2 fun e he => by simpa using h e he
  simp only [requeue, hf]

/-- A class raise of a line, its entry moved to its new place (R105, R129). -/
theorem listOk_raise {s : State} {n : LineNo} (c : LineClass) (h : ListOk s.line s.pool.waitList s.pool.joins) :
    ListOk (requeue n (s.setLine n { s.line n with cls := c })).line
      (requeue n (s.setLine n { s.line n with cls := c })).pool.waitList
      (requeue n (s.setLine n { s.line n with cls := c })).pool.joins := by
  have hleave := h.leave (n := n) { s.line n with cls := c }
  by_cases hw : s.Waits n
  · obtain ⟨e, he, hn⟩ := hw
    rw [requeue_waits (s := s.setLine n _) h.lines he hn]
    refine ListOk.insert (s := s.setLine n { s.line n with cls := c }) hleave (fun f hf => ?_) (fun f hf hj => ?_) ?_
      (h.wants e he).2
    · rw [hn]
      simpa using (List.mem_filter.1 hf).2
    · obtain ⟨hf, hfn⟩ := List.mem_filter.1 hf
      exact absurd (h.eq_of_joined hf he hj ▸ hn) (by simpa using hfn)
    · simpa [hn, Line.Wants] using hn ▸ h.line_wants he
  · have ha : ∀ e ∈ s.pool.waitList, e.line ≠ n := fun e he hn => hw ⟨e, he, hn⟩
    rw [requeue_absent (s := s.setLine n _) ha]
    exact h.sublist (List.Sublist.refl _) fun e he => by simpa [ha e he] using h.line_wants he

/-! ### Grants and freed senders (R130, R131, R139) -/

/-- A change of lines and senders that keeps who is attached to whom and who is FREE. -/
theorem SendersMatch.congr {s t : State} (h : SendersMatch s) (hl : ∀ n, (t.line n).attached = (s.line n).attached)
    (hk : ∀ k, (t.sender k).line = (s.sender k).line ∧ ((t.sender k).state = .free ↔ (s.sender k).state = .free)) :
    SendersMatch t :=
  ⟨fun n k => by rw [hl, (hk k).1]; exact h.1 n k, fun k => by rw [(hk k).1, (hk k).2]; exact h.2 k⟩

theorem SendersMatch.setLine {s : State} {n : LineNo} {l : Line} (h : SendersMatch s)
    (ha : l.attached = (s.line n).attached) : SendersMatch (s.setLine n l) :=
  h.congr (fun m => by by_cases hm : m = n <;> simp [hm, ha]) fun k => ⟨rfl, Iff.rfl⟩

/-- A FREE sender granted to a line without one (R131). -/
theorem sendersMatch_attach {s : State} {n : LineNo} {k : SenderNo} (b : Bool) (h : SendersMatch s)
    (hn : (s.line n).attached = none) (hk : (s.sender k).state = .free) : SendersMatch (attach b k n s) := by
  have hkl : (s.sender k).line = none := (h.2 k).1 hk
  refine ⟨fun m j => ?_, fun j => ?_⟩
  · by_cases hm : m = n <;> by_cases hj : j = k
    · simp [attach, hm, hj, grantedSender]
    · have := h.1 n j
      simp [attach, hm, hj, hn] at this ⊢
      exact ⟨fun e => (hj e.symm).elim, fun e => absurd e this⟩
    · have := h.1 m k
      simp [attach, hm, hj, hkl, grantedSender] at this ⊢
      exact ⟨fun e => absurd e this, fun e => absurd e.symm hm⟩
    · simpa [attach, hm, hj] using h.1 m j
  · by_cases hj : j = k
    · have := granted_not_free b n s.clk.state
      simpa [attach, hj, grantedSender] using this
    · simpa [attach, hj] using h.2 j

/-- A sender freed from its line (R135, R139). -/
theorem sendersMatch_detach {s : State} {n : LineNo} {k : SenderNo} (h : SendersMatch s)
    (hn : (s.line n).attached = some k) : SendersMatch (detach k n s) := by
  have hk : (s.sender k).line = some n := (h.1 n k).1 hn
  refine ⟨fun m j => ?_, fun j => ?_⟩
  · by_cases hm : m = n <;> by_cases hj : j = k
    · simp [detach, hm, hj, Sender.reset]
    · have := h.1 n j
      simp [detach, hm, hj, hn] at this ⊢
      exact fun e => hj (this.2 e).symm
    · have := h.1 m k
      simp [detach, hm, hj, hk, Sender.reset] at this ⊢
      exact fun e => hm (this.1 e).symm
    · simpa [detach, hm, hj] using h.1 m j
  · by_cases hj : j = k
    · simp [detach, hj, Sender.reset]
    · simpa [detach, hj] using h.2 j

end Sys2Proof.Machine
end

section
/-! SUPPORT. What a command can do to the line records and the Sender Pool, said once as a relation of moves; each move keeps
the laws of trains, of calls, and of senders and the wait list. -/

namespace Sys2Proof.Machine

/-! ### The moves -/

/-- A part of an event of line n, before the joining test made when the event is done (R121). -/
inductive OpenMove (n : LineNo) : State → State → Prop
  /-- No line record and nothing of the pool changes. -/
  | rest {s t : State} (hl : t.lines = s.lines) (hp : t.pool = s.pool) : OpenMove n s t
  | line {s : State} {l : Line} (h : LineKept (s.line n) l) : OpenMove n s (s.setLine n l)
  /-- A trapped set suspends the line (R27, R128). -/
  | suspend {s : State} : OpenMove n s (leaveWait n (s.setLine n ((s.line n).suspend (resumeTargetOf (s.line n).main))))
  /-- An evaluation raises the class (R105, R129). -/
  | raise {s : State} (h : (s.line n).main.inCall = true) :
    OpenMove n s (requeue n (s.setLine n { s.line n with cls := .urgent }))

/-- An event of line n, part by part. -/
abbrev OpenMoves (n : LineNo) : State → State → Prop := Relation.ReflTransGen (OpenMove n)

/-- The senders keep their lines, and those FREE stay FREE, no others becoming so. -/
def SendersKept (s t : State) : Prop :=
  ∀ k, (t.sender k).line = (s.sender k).line ∧ ((t.sender k).state = .free ↔ (s.sender k).state = .free)

/-- What a command does to the line records and the pool, one change after another. -/
inductive Move : State → State → Prop
  | rest {s t : State} (hl : t.lines = s.lines) (hp : t.pool = s.pool) : Move s t
  /-- A change of one record that gives the line no new reason to wait. -/
  | line {s : State} {n : LineNo} {l : Line} (h : LineKept (s.line n) l)
    (hw : (s.line n).CallOk → l.Wants → (s.line n).Wants) : Move s (s.setLine n l)
  | senders {s t : State} (hl : t.lines = s.lines) (hw : t.pool.waitList = s.pool.waitList)
    (hj : t.pool.joins = s.pool.joins) (hk : SendersKept s t) : Move s t
  /-- A tick boundary counts every completion timer (R98). -/
  | tick {s t : State} (hl : ∀ n, t.line n = (s.line n).timerTick) (hw : t.pool.waitList = s.pool.waitList)
    (hj : t.pool.joins = s.pool.joins) (hk : SendersKept s t) : Move s t
  /-- An event of a line, with its joining test (R121, R127). -/
  | event {s u : State} {n : LineNo} (h : OpenMoves n s u) : Move s (joinTest n u)
  /-- An event that suspends its line, which no longer waits. -/
  | suspended {s u : State} {n : LineNo} (h : OpenMoves n s u) (hm : (u.line n).main = .suspended) : Move s u
  /-- The keys of a line without a sender are flushed (R124, R128). -/
  | flush {s : State} {n : LineNo} : Move s (leaveWait n (s.setLine n { s.line n with store := [] }))
  /-- Keys leave the store of a line that holds a sender (R124, R135). -/
  | keys {s : State} {n : LineNo} {k : SenderNo} {ks : List StoredKey}
    (ha : (s.line n).attached = some k ∨ (s.sender k).line = some n) (hs : (s.line n).store = [] → ks = []) :
    Move s (s.setLine n { s.line n with store := ks })
  | release {s : State} {n : LineNo} {m : MainState} {d : DevTime} (hm : m.inCall = false) : Move s (releaseEffects n m d s)
  /-- A sender whose line has no key left is freed, and granted on (R130, R135). -/
  | free {s : State} {n : LineNo} {k : SenderNo} {reason : SendReason} {b : Bool} {d : DevTime}
    (hk : (s.sender k).line = some n) (hs : (s.line n).store = []) : Move s (arbitrate b (freeSender k n reason d s))
  | reset {s t : State} (hl : t.lines = State.reset.lines) (hp : t.pool = State.reset.pool) : Move s t

/-- What a command does to the line records and the pool. -/
abbrev Moves : State → State → Prop := Relation.ReflTransGen Move

/-! ### Moves keep the law of trains (R18, R40, R44, R54, R55) -/

theorem TrainLaws.of_lines {s t : State} (h : TrainLaws s) (hl : t.lines = s.lines) : TrainLaws t := fun n => by
  rw [line_congr hl n]
  exact h n

theorem TrainLaws.of_pool {s t : State} (h : TrainLaws s) (hl : AllLinesSameButSenders s t) : TrainLaws t :=
  fun n => Line.TrainOk.sameButSender (h n) (hl n)

theorem TrainLaws.of_line {n : LineNo} {s t : State} (h : TrainLaws s) (ho : OtherLinesSameButSenders n s t)
    (hn : (t.line n).TrainOk) : TrainLaws t := fun m => by
  by_cases hm : m = n
  · exact hm ▸ hn
  · exact Line.TrainOk.sameButSender (h m) (ho m hm)

theorem TrainLaws.setLine {n : LineNo} {s : State} {l : Line} (h : TrainLaws s) (hl : l.TrainOk) :
    TrainLaws (s.setLine n l) := h.of_line (lineEvent_setLine n s l).2 (by simpa using hl)

/-- A change outside the train fields and the main state. -/
theorem TrainLaws.setLine_same {n : LineNo} {s : State} {l : Line} (h : TrainLaws s)
    (hl : l.TrainOk = (s.line n).TrainOk) : TrainLaws (s.setLine n l) := h.setLine (hl ▸ h n)

theorem OpenMove.trainLaws {n : LineNo} {s t : State} (h : OpenMove n s t) (hs : TrainLaws s) : TrainLaws t := by
  cases h with
  | rest hl _ => exact hs.of_lines hl
  | line hk => exact hs.setLine (hk.train (hs n))
  | suspend => exact (hs.setLine (suspend_trainOk _ _)).of_pool (leaveWait_event n _).2.1
  | raise _ => exact (hs.setLine_same (l := { s.line n with cls := .urgent }) rfl).of_pool (requeue_event n _).2.1

theorem OpenMoves.trainLaws {n : LineNo} {s t : State} (h : OpenMoves n s t) (hs : TrainLaws s) : TrainLaws t := by
  induction h with
  | refl => exact hs
  | tail _ hm ih => exact hm.trainLaws ih

theorem Move.trainLaws {s t : State} (h : Move s t) (hs : TrainLaws s) : TrainLaws t := by
  cases h with
  | rest hl _ => exact hs.of_lines hl
  | line hk _ => exact hs.setLine (hk.train (hs _))
  | senders hl _ _ _ => exact hs.of_lines hl
  | tick hl _ _ _ => exact fun n => by rw [hl n]; exact hs n
  | event he => exact (he.trainLaws hs).of_pool (joinTest_event _ _).2.1
  | suspended he _ => exact he.trainLaws hs
  | @flush n => exact (hs.setLine_same (l := { s.line n with store := [] }) rfl).of_pool (leaveWait_event n _).2.1
  | @keys n _ ks _ _ => exact hs.setLine_same (l := { s.line n with store := ks }) rfl
  | release _ =>
    refine hs.of_line (releaseEffects_spec ..).1.1.2 ?_
    rw [releaseEffects_line]
    exact releasedLine_trainOk _ _
  | free _ _ => exact (hs.of_pool (freeSender_spec ..).2.1).of_pool (arbitrate_event ..).2.1
  | reset hl _ => exact reset_trainLaws.of_lines hl

theorem Moves.trainLaws {s t : State} (h : Moves s t) (hs : TrainLaws s) : TrainLaws t := by
  induction h with
  | refl => exact hs
  | tail _ hm ih => exact hm.trainLaws ih

/-! ### The laws of calls and of the pool, together -/

/-- The laws of calls and of the pool, and, under a premise w, that every line that should wait does. -/
structure PoolSafe (w : Prop) (s : State) : Prop where
  calls : CallLaws s
  senders : SendersMatch s
  list : ListOk s.line s.pool.waitList s.pool.joins
  waits : w → ∀ m, (s.line m).Wants → s.Waits m

/-- The same in the course of an event of line n, whose joining test is still to come. -/
structure PoolOpen (w : Prop) (n : LineNo) (s : State) : Prop where
  calls : CallLaws s
  senders : SendersMatch s
  list : ListOk s.line s.pool.waitList s.pool.joins
  waits : w → ∀ m, m ≠ n → (s.line m).Wants → s.Waits m

theorem PoolSafe.opens {w : Prop} {s : State} (h : PoolSafe w s) (n : LineNo) : PoolOpen w n s :=
  { h with waits := fun hw m _ => h.waits hw m }

/-- An event is done when its line waits or has no reason to. -/
theorem PoolOpen.close {w : Prop} {n : LineNo} {s : State} (h : PoolOpen w n s) (hn : w → (s.line n).Wants → s.Waits n) :
    PoolSafe w s where
  calls := h.calls
  senders := h.senders
  list := h.list
  waits hw m := by
    by_cases hm : m = n
    · subst hm
      exact hn hw
    · exact h.waits hw m hm

theorem CallLaws.setLine {n : LineNo} {s : State} {l : Line} (h : CallLaws s) (hl : l.CallOk) : CallLaws (s.setLine n l) :=
  fun m => by
    by_cases hm : m = n
    · rw [line_setLine, if_pos hm]
      exact hl
    · rw [line_setLine, if_neg hm]
      exact h m

theorem callLaws_congr {s t : State} (h : CallLaws s) (hl : ∀ n, t.line n = s.line n) : CallLaws t := fun n => by
  rw [hl n]
  exact h n

/-- Line records and the pool are all that the laws read. -/
theorem PoolOpen.rest {w : Prop} {n : LineNo} {s t : State} (h : PoolOpen w n s) (hl : t.lines = s.lines)
    (hp : t.pool = s.pool) : PoolOpen w n t := by
  have hline := line_congr hl
  have hsender : ∀ k, t.sender k = s.sender k := fun k => by simp [State.sender, hp]
  refine ⟨callLaws_congr h.calls hline, h.senders.congr (fun m => by rw [hline]) fun k => by simp [hsender], ?_,
    fun hw m hm => ?_⟩
  · rw [hp, show t.line = s.line from funext hline]
    exact h.list
  · rw [hline, State.Waits, hp]
    exact h.waits hw m hm

theorem PoolSafe.rest {w : Prop} {s t : State} (h : PoolSafe w s) (hl : t.lines = s.lines) (hp : t.pool = s.pool) :
    PoolSafe w t :=
  ((h.opens 0).rest hl hp).close fun hw => by
    rw [line_congr hl, State.Waits, hp]
    exact h.waits hw 0

theorem PoolOpen.setLine {w : Prop} {n : LineNo} {s : State} {l : Line} (h : PoolOpen w n s) (hl : LineKept (s.line n) l) :
    PoolOpen w n (s.setLine n l) :=
  ⟨h.calls.setLine (hl.calls (h.calls n)), h.senders.setLine hl.attached, h.list.setLine hl.waits, fun hw m hm => by
    rw [line_setLine_of_ne s l hm]
    exact h.waits hw m hm⟩

/-- Line n leaves the list with a new record (R128). -/
theorem PoolOpen.leave {w : Prop} {n : LineNo} {s : State} {l : Line} (h : PoolOpen w n s) (hl : l.CallOk)
    (ha : l.attached = (s.line n).attached) : PoolOpen w n (leaveWait n (s.setLine n l)) where
  calls := callLaws_congr (h.calls.setLine hl) fun _ => rfl
  senders := (h.senders.setLine ha).congr (fun _ => rfl) fun _ => ⟨rfl, Iff.rfl⟩
  list := h.list.leave l
  waits hw m hm hwant := by
    rw [line_leaveWait, line_setLine_of_ne s l hm] at hwant
    obtain ⟨e, he, rfl⟩ := h.waits hw m hm hwant
    exact ⟨e, List.mem_filter.2 ⟨he, by simpa using hm⟩, rfl⟩

theorem requeue_pool (n : LineNo) (s : State) : (requeue n s).pool.joins = s.pool.joins
    ∧ (requeue n s).pool.senders = s.pool.senders := by
  unfold requeue
  split <;> exact ⟨rfl, rfl⟩

/-- A requeue loses no entry (R129). -/
theorem requeue_keeps {n m : LineNo} {s : State} (h : s.Waits m) (hm : m ≠ n) : (requeue n s).Waits m := by
  obtain ⟨e, he, rfl⟩ := h
  unfold requeue
  split
  · exact ⟨e, insertWait_mem.2 (.inr (List.mem_filter.2 ⟨he, by simpa using hm⟩)), rfl⟩
  · exact ⟨e, he, rfl⟩

theorem PoolOpen.raise {w : Prop} {n : LineNo} {s : State} (h : PoolOpen w n s) (hc : (s.line n).main.inCall = true) :
    PoolOpen w n (requeue n (s.setLine n { s.line n with cls := .urgent })) := by
  have hline : ∀ m, (requeue n (s.setLine n { s.line n with cls := .urgent })).line m
      = (s.setLine n { s.line n with cls := .urgent }).line m := fun m => line_requeue n m _
  refine ⟨callLaws_congr (h.calls.setLine ?_) hline, ?_, listOk_raise .urgent h.list, fun hw m hm hwant => ?_⟩
  · exact ⟨fun hm => absurd (hc.symm.trans hm) (by simp), (h.calls n).2⟩
  · refine SendersMatch.congr (h.senders.setLine (n := n) (l := { s.line n with cls := .urgent }) rfl)
      (fun m => by rw [hline]) fun k => ?_
    have hk : (requeue n (s.setLine n { s.line n with cls := .urgent })).sender k = s.sender k :=
      congrArg (·[k]) (requeue_pool n _).2
    simp [hk]
  · rw [hline, line_setLine_of_ne s _ hm] at hwant
    exact requeue_keeps (s := s.setLine n _) (h.waits hw m hm hwant) hm

theorem OpenMove.poolOpen {w : Prop} {n : LineNo} {s t : State} (h : OpenMove n s t) (hs : PoolOpen w n s) :
    PoolOpen w n t := by
  cases h with
  | rest hl hp => exact hs.rest hl hp
  | line hk => exact hs.setLine hk
  | suspend => exact hs.leave (suspend_callOk (hs.calls n)) rfl
  | raise hc => exact hs.raise hc

theorem OpenMoves.poolOpen {w : Prop} {n : LineNo} {s t : State} (h : OpenMoves n s t) (hs : PoolOpen w n s) :
    PoolOpen w n t := by
  induction h with
  | refl => exact hs
  | tail _ hm ih => exact hm.poolOpen ih

/-! ### Grants, joins and freed senders -/

theorem freeSender?_some {s : State} {k : SenderNo} (h : freeSender? s = some k) : (s.sender k).state = .free := by
  simpa using List.find?_some (show List.find? (fun j => (s.sender j).state == .free) allSenders = some k from h)

theorem PoolSafe.grantOne {w : Prop} {s : State} (h : PoolSafe w s) (b : Bool) : PoolSafe w (grantOne b s) := by
  unfold Machine.grantOne
  split
  · rename_i k e rest hk hlist
    have hwant : (s.line e.line).Wants := h.list.line_wants (by simp [hlist])
    have hleave : SendersMatch (leaveWait e.line s) := h.senders.congr (fun _ => rfl) fun _ => ⟨rfl, Iff.rfl⟩
    refine ⟨(callLaws_iff _).2 fun m => ?_, sendersMatch_attach b hleave hwant.2.2 (freeSender?_some hk),
      h.list.leave _, fun hw m hm => ?_⟩
    · by_cases hme : m = e.line
      · subst hme
        simpa [attach] using Line.CallOk.attach (h.calls e.line) hwant.inCall (some k)
      · simpa [attach, hme] using (callLaws_iff s).1 h.calls m
    · by_cases hme : m = e.line
      · simp [attach, hme, Line.Wants] at hm
      · obtain ⟨f, hf, rfl⟩ := h.waits hw m (by simpa [attach, hme] using hm)
        exact ⟨f, List.mem_filter.2 ⟨hf, by simpa using hme⟩, rfl⟩
  · exact h

theorem PoolSafe.arbitrate {w : Prop} {s : State} (h : PoolSafe w s) (b : Bool) : PoolSafe w (arbitrate b s) := by
  have hmany : ∀ fuel s, PoolSafe w s → PoolSafe w (grantMany b fuel s) := by
    intro fuel
    induction fuel with
    | zero => exact fun _ h => h
    | succ fuel ih => exact fun s h => ih _ (h.grantOne b)
  exact hmany 16 s h

/-- A line may join when it should wait and does not (R127). -/
theorem mayJoin_iff {n : LineNo} {s : State} : mayJoin n s = true ↔ (s.line n).Wants ∧ ¬ s.Waits n := by
  rw [← waiting_iff]
  simp [mayJoin, Line.Wants, and_assoc]

theorem PoolOpen.joinTest {w : Prop} {n : LineNo} {s : State} (h : PoolOpen w n s) : PoolSafe w (joinTest n s) := by
  unfold Machine.joinTest
  split
  · rename_i hj
    obtain ⟨hwant, hnot⟩ := mayJoin_iff.1 hj
    refine PoolSafe.arbitrate (s := joinWait n s) ⟨callLaws_congr h.calls fun _ => rfl,
      h.senders.congr (fun _ => rfl) fun _ => ⟨rfl, Iff.rfl⟩, listOk_joinWait h.list hwant hnot,
      fun hw m hm => ?_⟩ false
    by_cases hmn : m = n
    · exact ⟨⟨n, s.pool.joins⟩, insertWait_mem.2 (.inl rfl), hmn.symm⟩
    · obtain ⟨e, he, hem⟩ := h.waits hw m hmn hm
      exact ⟨e, insertWait_mem.2 (.inr he), hem⟩
  · rename_i hj
    exact h.close fun _ hwant => not_not.1 fun hnot => hj (mayJoin_iff.2 ⟨hwant, hnot⟩)

/-- A sender is freed from a line that, without it, has no reason to wait (R135, R139). The laws of calls may fail of that
line until then. -/
theorem poolSafe_freeSender {w : Prop} {n : LineNo} {k : SenderNo} {s : State} (reason : SendReason) (d : DevTime)
    (hc : ∀ m, m ≠ n → (s.line m).CallOk) (hn : ({ s.line n with attached := none } : Line).CallOk)
    (hs : SendersMatch s) (hl : ListOk s.line s.pool.waitList s.pool.joins)
    (hw : w → ∀ m, m ≠ n → (s.line m).Wants → s.Waits m)
    (ha : (s.line n).attached = some k) (hnot : ¬ ({ s.line n with attached := none } : Line).Wants) :
    PoolSafe w (freeSender k n reason d s) := by
  refine PoolSafe.rest (s := detach k n s)
    ⟨(callLaws_iff _).2 fun m => ?_, sendersMatch_detach hs ha, ?_, fun h m hm => ?_⟩
    (handOver_lines _ _) (handOver_pool _ _)
  · by_cases hmn : m = n
    · subst hmn
      simpa [detach] using hn
    · simpa [detach, hmn] using hc m hmn
  · refine hl.sublist (List.Sublist.refl _) fun e he => ?_
    have hwant := hl.line_wants he
    have hne : e.line ≠ n := by
      intro he
      obtain ⟨-, -, hnone⟩ := hwant
      simp [he, ha] at hnone
    simpa [detach, hne] using hwant
  · by_cases hmn : m = n
    · subst hmn
      exact absurd (by simpa [detach] using hm) hnot
    · exact hw h m hmn (by simpa [detach, hmn] using hm)

/-- The release effects (R23, R128, R139). -/
theorem PoolSafe.release {w : Prop} {n : LineNo} {m : MainState} {s : State} (h : PoolSafe w s) (d : DevTime)
    (hm : m.inCall = false) : PoolSafe w (releaseEffects n m d s) := by
  have hnone : ({ (s.line n).releaseTo m with attached := none } : Line).CallOk := releasedLine_callOk hm (s.line n)
  have hnot : ∀ a, ¬ ({ (s.line n).releaseTo m with attached := a } : Line).Wants := fun a hw =>
    not_dialling_of_outside hm hw.1
  have hsend : SendersMatch (leaveWait n (s.setLine n ((s.line n).releaseTo m))) :=
    (h.senders.setLine (n := n) (l := (s.line n).releaseTo m) rfl).congr (fun _ => rfl) fun _ => ⟨rfl, Iff.rfl⟩
  unfold releaseEffects cutSender
  rw [line_leaveWait, line_setLine_self]
  cases ha : ((s.line n).releaseTo m).attached with
  | none =>
    refine ((h.opens n).leave (l := (s.line n).releaseTo m) ?_ rfl).close fun _ hw =>
      absurd (by simpa using hw) (hnot ((s.line n).releaseTo m).attached)
    rw [← ha] at hnone
    exact hnone
  | some k =>
    refine PoolSafe.arbitrate (poolSafe_freeSender .cut d (fun j hj => ?_) (by simpa using hnone) hsend (h.list.leave _)
      (fun hw j hj hwant => ?_) (by simpa using ha) (by simpa using hnot none)) false
    · simpa [hj] using (callLaws_iff s).1 h.calls j
    · obtain ⟨e, he, rfl⟩ := h.waits hw j (by simpa [hj] using hwant)
      exact ⟨e, List.mem_filter.2 ⟨he, by simpa using hj⟩, rfl⟩

/-! ### Moves keep the laws of calls and of the pool -/

/-- A change of the senders that keeps their lines, and of line records that leaves what the laws read. -/
theorem PoolSafe.congr {w : Prop} {s t : State} (h : PoolSafe w s) (hc : CallLaws t)
    (hl : ∀ n, ((t.line n).Wants ↔ (s.line n).Wants) ∧ (t.line n).cls = (s.line n).cls
      ∧ (t.line n).attached = (s.line n).attached)
    (hw : t.pool.waitList = s.pool.waitList) (hj : t.pool.joins = s.pool.joins) (hk : SendersKept s t) : PoolSafe w t where
  calls := hc
  senders := h.senders.congr (fun n => (hl n).2.2) hk
  list := by
    rw [hw, hj]
    exact h.list.sublist (List.Sublist.refl _) fun e he => ⟨(hl _).1.2 (h.list.line_wants he), (hl _).2.1⟩
  waits hp m hm := by
    rw [State.Waits, hw]
    exact h.waits hp m ((hl m).1.1 hm)

theorem timerTick_callOk {l : Line} (h : l.CallOk) : l.timerTick.CallOk := by
  obtain ⟨h1, h2, h34⟩ := h
  exact ⟨h1, fun ht => h2 (by simpa [Line.timerTick] using ht), h34⟩

theorem Move.poolSafe {w : Prop} {s t : State} (h : Move s t) (hs : PoolSafe w s) : PoolSafe w t := by
  cases h with
  | rest hl hp => exact hs.rest hl hp
  | @line n l hk hq =>
    refine ((hs.opens n).setLine hk).close fun hw hwant => ?_
    exact hs.waits hw n (hq (hs.calls n) (by simpa using hwant))
  | senders hl hw hj hk =>
    have hline := line_congr hl
    exact hs.congr (callLaws_congr hs.calls hline) (fun n => by simp [hline]) hw hj hk
  | tick hl hw hj hk =>
    refine hs.congr (fun n => ?_) (fun n => by rw [hl]; exact ⟨Iff.rfl, rfl, rfl⟩) hw hj hk
    rw [hl n]
    exact timerTick_callOk (hs.calls n)
  | event he => exact (he.poolOpen (hs.opens _)).joinTest
  | suspended he hm =>
    refine (he.poolOpen (hs.opens _)).close fun _ hwant => ?_
    simp [Line.Wants, hm] at hwant
  | @flush n =>
    refine ((hs.opens n).leave (l := { s.line n with store := [] }) ?_ rfl).close fun _ hwant => by
      simp [Line.Wants] at hwant
    exact ⟨fun hm => ⟨rfl, ((hs.calls n).1 hm).2⟩, (hs.calls n).2⟩
  | @keys n k ks ha hk =>
    have ha : (s.line n).attached = some k := ha.elim id (hs.senders.1 n k).2
    have hcall : ({ s.line n with store := ks } : Line).CallOk :=
      ⟨fun hm => ⟨hk ((hs.calls n).1 hm).1, ((hs.calls n).1 hm).2⟩, (hs.calls n).2⟩
    refine hs.congr (hs.calls.setLine hcall) (fun m => ?_) rfl rfl fun _ => ⟨rfl, Iff.rfl⟩
    by_cases hm : m = n
    · subst hm
      simp [Line.Wants, ha]
    · simp [hm]
  | release hm => exact hs.release _ hm
  | @free n k reason b d hk hstore =>
    have hempty : ∀ a, ¬ ({ s.line n with attached := a } : Line).Wants := fun a hw => hw.2.1 hstore
    refine PoolSafe.arbitrate (poolSafe_freeSender reason d (fun m _ => hs.calls m) ?_ hs.senders hs.list
      (fun hw m _ => hs.waits hw m) ((hs.senders.1 n k).2 hk) (hempty none)) b
    obtain ⟨h1, h2⟩ := hs.calls n
    exact ⟨fun hm => ⟨(h1 hm).1, (h1 hm).2.1, rfl, (h1 hm).2.2.2⟩, h2⟩
  | reset hl hp =>
    obtain ⟨hsend, hlist⟩ := (poolLaws_iff _).1 reset_poolLaws
    refine PoolSafe.rest (s := State.reset) ⟨reset_callLaws, hsend, hlist, fun _ m hm => ?_⟩ hl hp
    simp [Line.Wants, Line.reset] at hm

theorem Moves.poolSafe {w : Prop} {s t : State} (h : Moves s t) (hs : PoolSafe w s) : PoolSafe w t := by
  induction h with
  | refl => exact hs
  | tail _ hm ih => exact hm.poolSafe ih

end Sys2Proof.Machine
end

section
/-! SUPPORT. Every event of a line, and every step of a sender or of the clock, as moves of the line records and the pool. -/

namespace Sys2Proof.Machine

/-! ### Single moves -/

theorem moves_rest {s t : State} (hl : t.lines = s.lines) (hp : t.pool = s.pool) : Moves s t := .single (.rest hl hp)

/-- A change of one record outside its call. -/
theorem moves_line {n : LineNo} {s : State} {l : Line} (h : CallSame (s.line n) l)
    (ht : (s.line n).TrainOk → l.TrainOk) : Moves s (s.setLine n l) :=
  .single (.line (h.kept ht) fun _ => h.wants.1)

/-- A change of one record that stays outside calls. -/
theorem moves_outside {n : LineNo} {s : State} {l : Line} (h : OutsideKept (s.line n) l) : Moves s (s.setLine n l) :=
  .single (.line h.kept fun _ hw => absurd hw h.not_wants)

theorem moves_handOver (r : Record) (s : State) : Moves s (handOver r s) :=
  moves_rest (handOver_lines r s) (handOver_pool r s)

/-- A change of one sender that keeps its line, and whether it is FREE. -/
theorem moves_setSender {s : State} {k : SenderNo} {x : Sender} (hl : x.line = (s.sender k).line)
    (hf : x.state = .free ↔ (s.sender k).state = .free) : Moves s (s.setSender k x) :=
  .single (.senders rfl rfl rfl fun j => by
    by_cases hj : j = k
    · subst hj
      simpa using ⟨hl, hf⟩
    · simp [hj])

theorem moves_mapSenders {s : State} {f : Sender → Sender}
    (h : ∀ x, (f x).line = x.line ∧ ((f x).state = .free ↔ x.state = .free)) : Moves s (s.mapSenders f) :=
  .single (.senders rfl rfl rfl fun k => by simpa using h (s.sender k))

theorem moves_line_handOver {n : LineNo} {s : State} {l : Line} (r : Record) (h : CallSame (s.line n) l)
    (ht : (s.line n).TrainOk → l.TrainOk) : Moves s (handOver r (s.setLine n l)) :=
  (moves_line h ht).trans (moves_handOver _ _)

theorem openMoves_line {n : LineNo} {s : State} {l : Line} (h : LineKept (s.line n) l) : OpenMoves n s (s.setLine n l) :=
  .single (.line h)

theorem openMoves_handOver (n : LineNo) (r : Record) (s : State) : OpenMoves n s (handOver r s) :=
  .single (.rest (handOver_lines r s) (handOver_pool r s))

/-! ### Condition sets, classes, stores and completions -/

theorem openMoves_suspendLine {n : LineNo} {s : State} (set : CondSet) {target : ResumeTarget} (prior : MainState)
    (d : DevTime) (h : target = resumeTargetOf (s.line n).main) :
    OpenMoves n s (suspendLine n set target prior d s) := by
  subst h
  exact .tail (.single .suspend) (.rest (handOver_lines _ _) (handOver_pool _ _))

theorem suspendLine_main (n : LineNo) (set : CondSet) (target : ResumeTarget) (prior : MainState) (d : DevTime) (s : State) :
    ((suspendLine n set target prior d s).line n).main = .suspended := by
  rw [(suspendLine_spec n set target prior d s).2.1]
  rfl

/-- A suspension ends its event (R27, R128). -/
theorem moves_suspendLine {n : LineNo} {s u : State} (h : OpenMoves n s u) (set : CondSet) {target : ResumeTarget}
    (prior : MainState) (d : DevTime) (ht : target = resumeTargetOf (u.line n).main) :
    Moves s (suspendLine n set target prior d u) :=
  .single (.suspended (h.trans (openMoves_suspendLine set prior d ht)) (suspendLine_main ..))

theorem callSame_applySet (b : Bool) (set : CondSet) (l : Line) : CallSame l (l.applySet b set) := {}

theorem moves_raiseSet (n : LineNo) (b : Bool) (set : CondSet) (d : DevTime) (s : State) :
    Moves s (raiseSet n b set d s) := by
  simp only [raiseSet]
  split
  · exact moves_suspendLine (openMoves_line ((callSame_applySet b set _).kept id)) set _ d (by simp [Line.applySet])
  · exact moves_line (callSame_applySet b set _) id

theorem moves_line_raiseSet {n : LineNo} {s : State} {l : Line} (b : Bool) (set : CondSet) (d : DevTime)
    (h : CallSame (s.line n) l) (ht : (s.line n).TrainOk → l.TrainOk) : Moves s (raiseSet n b set d (s.setLine n l)) :=
  (moves_line h ht).trans (moves_raiseSet n b set d _)

theorem openMoves_raiseClass {n : LineNo} (ev : Evaluation) {s : State} (h : (s.line n).main.inCall = true) :
    OpenMoves n s (raiseClass n ev s) := by
  unfold raiseClass
  split
  · split
    · exact .single (.raise h)
    · exact .refl
  · exact .refl

theorem raiseClass_main (n : LineNo) (ev : Evaluation) (s : State) :
    ((raiseClass n ev s).line n).main = (s.line n).main := by rw [raiseClass_line]

theorem openMoves_offerTo {n : LineNo} (ks : List StoredKey) {s : State} (h : (s.line n).main.inCall = true) :
    OpenMoves n s (offerTo n ks s) := openMoves_line (lineKept_store h offer_ne_nil)

/-- A completion is an event of its line that ends in the joining test (R111). -/
theorem completeNumber_event {n : LineNo} {s : State} (p : Profile) (o : NumberOutcome) (ev : Evaluation) (d : DevTime)
    (h : (s.line n).main = .collecting) : ∃ u, OpenMoves n s u ∧ completeNumber n p o ev d s = joinTest n u := by
  unfold completeNumber
  extract_lets l ks set s1 s2 s3
  have h1 : OpenMoves n s s1 := (openMoves_offerTo ks (by simp [h, MainState.inCall])).trans (openMoves_handOver n _ _)
  have hm : (s1.line n).main = .collecting := by simpa [s1, offerTo] using h
  have h3 : OpenMoves n s s3 := (h1.trans (openMoves_line (lineKept_enterThrough hm))).trans
    (openMoves_line ((callSame_applySet false set _).kept id))
  refine ⟨_, ?_, rfl⟩
  split
  · refine h3.trans (openMoves_suspendLine set _ d ?_)
    simp [s3, s2, Line.applySet, Line.enterThrough, resumeTargetOf]
  · exact h3

theorem moves_completeNumber {n : LineNo} {s u : State} (p : Profile) (o : NumberOutcome) (ev : Evaluation) (d : DevTime)
    (h : OpenMoves n s u) (hm : (u.line n).main = .collecting) : Moves s (completeNumber n p o ev d u) := by
  obtain ⟨v, hv, he⟩ := completeNumber_event p o ev d hm
  rw [he]
  exact .single (.event (h.trans hv))

/-- A class raise and then a completion (R103, R105, R111). -/
theorem moves_evaluated {n : LineNo} {s u : State} (p : Profile) (o : NumberOutcome) (ev : Evaluation) (d : DevTime)
    (h : OpenMoves n s u) (hm : (u.line n).main = .collecting) :
    Moves s (completeNumber n p o ev d (raiseClass n ev u)) :=
  moves_completeNumber p o ev d (h.trans (openMoves_raiseClass ev (by simp [hm, MainState.inCall])))
    ((raiseClass_main n ev u).trans hm)

/-- The evaluation after a digit, with the joining test of the digit end (R103, R121). -/
theorem moves_evaluateAfterDigit {n : LineNo} {s u : State} (p : Profile) (d : DevTime) (h : OpenMoves n s u)
    (hm : (u.line n).main = .collecting) : Moves s (joinTest n (evaluateAfterDigit n p d u)) := by
  simp only [evaluateAfterDigit]
  split
  · exact .tail (moves_evaluated p _ _ d h hm) (.event .refl)
  · exact .single (.event (h.trans (openMoves_raiseClass _ (by simp [hm, MainState.inCall]))))

/-! ### Digits and seizure -/

@[simp] theorem collect_main (key : Option Key) (l : Line) : (l.collect key).main = l.main := by
  unfold Line.collect
  split
  · split <;> rfl
  · rfl

@[simp] theorem collect_store (key : Option Key) (l : Line) : (l.collect key).store = l.store := by
  unfold Line.collect
  split
  · split <;> rfl
  · rfl

/-- The record of a digit end, before a trapped set suspends the line (R56, R59, R60). -/
theorem lineKept_endDigit {l : Line} (set : CondSet) (key : Option Key) (ks : List StoredKey) (h : l.main.inCall = true) :
    LineKept l { (if l.traps set then l.applySet true set
        else { (l.applySet true set).collect key with store := offer ks (l.applySet true set).store }).dropTrain with
      lastCauses := (l.applySet true set).causes } := by
  have hset : LineKept l (l.applySet true set) := (callSame_applySet true set l).kept id
  refine LineKept.trans (l' := if l.traps set then l.applySet true set
    else { (l.applySet true set).collect key with store := offer ks (l.applySet true set).store }) ?_
    (CallSame.kept {} fun _ => dropTrain_trainOk _)
  split
  · exact hset
  · refine (hset.trans (lineKept_collect key _)).trans (lineKept_store (by simpa [Line.applySet] using h) ?_)
    rw [collect_store]
    exact offer_ne_nil

theorem moves_endDigit {n : LineNo} {s : State} (p : Profile) (d : DevTime) (h : (s.line n).main.inCall = true) :
    Moves s (endDigit n p d s) := by
  unfold endDigit
  extract_lets l key ks full set l1 collected l2 disposition l3 s1
  have h1 : OpenMoves n s s1 := (openMoves_line (lineKept_endDigit set key ks h)).trans (openMoves_handOver n _ _)
  have hm : (s1.line n).main = l.main := by
    simp only [s1, l3, line_handOver, line_setLine_self, Line.dropTrain, l2, collected]
    split
    · rfl
    · exact collect_main key _
  split
  · exact moves_suspendLine h1 set _ d (by rw [hm])
  · split
    · rename_i hc
      exact moves_evaluateAfterDigit p d h1 (hm.trans hc.1)
    · exact .single (.event h1)

theorem moves_enterCollecting {n : LineNo} {s : State} (d : DevTime) (h : (s.line n).main = .seizing) :
    Moves s (enterCollecting n d s) :=
  .tail (.single (.line (lineKept_seize h) fun hc hw => absurd hw (seize_not_wants h hc)))
    (.rest (handOver_lines _ _) (handOver_pool _ _))

theorem moves_seizeLine {n : LineNo} {s : State} (p : Profile) (d : DevTime) (h : (s.line n).main = .onHook) :
    Moves s (seizeLine n p d s) := by
  have hout : (s.line n).main.inCall = false := by simp [h, MainState.inCall]
  have h1 : Moves s (s.setLine n { s.line n with main := .seizing, intervalTimer := 0 }) := moves_outside {}
  simp only [seizeLine]
  split
  · exact h1.trans (moves_enterCollecting d (by simp))
  · exact h1

/-- A pending profile is adopted outside calls (R35). -/
theorem moves_adoptPending {n : LineNo} {s : State} (d : DevTime) (h : (s.line n).main.inCall = false) :
    Moves s (adoptPending n d s) := by
  unfold adoptPending
  split
  · exact (moves_outside (outsideKept_adopt _ h)).trans (moves_handOver _ _)
  · exact .refl

theorem moves_abandonSeizure {n : LineNo} {s : State} (d : DevTime) (h : (s.line n).main = .seizing) :
    Moves s (abandonSeizure n d s) := by
  have hout : (s.line n).main.inCall = false := by simp [h, MainState.inCall]
  exact (moves_outside { sub := .inr rfl }).trans (moves_adoptPending d (by simp [MainState.inCall]))

/-! ### Trains (R41 to R55) -/

theorem trainOk_break {l : Line} (hs : l.sub = .make) (h : l.TrainOk) : ({ l with sub := .brk } : Line).TrainOk := by
  obtain ⟨h1, -, h3, h4, -⟩ := h
  obtain ⟨hr, ht⟩ := h4 hs
  exact ⟨fun _ => h1 (by simp [hs]), by simp, fun _ => h3 (by simp [hs]), by simp, fun _ => by simp [hr, ht]⟩

theorem trainOk_reopen {l : Line} (hs : l.sub = .make) (h : l.TrainOk) :
    ({ l with sub := .brk, reopened := true, threshold := none } : Line).TrainOk := by
  obtain ⟨h1, -, h3, -⟩ := h
  exact ⟨fun _ => h1 (by simp [hs]), by simp, fun _ => h3 (by simp [hs]), by simp, by simp⟩

theorem trainOk_absorb {l : Line} (hs : l.sub = .brk) (hr : l.reopened = false) (h : l.TrainOk) :
    ({ l with sub := .make } : Line).TrainOk := by
  obtain ⟨h1, -, h3, -, h5⟩ := h
  have ht : l.threshold ≠ none := fun ht => by simpa [hr] using (h5 hs).2 ht
  exact ⟨fun _ => h1 (by simp [hs]), by simp, fun _ => h3 (by simp [hs]), fun _ => ⟨hr, ht⟩, by simp⟩

/-- A make of a train begins, its threshold computed. -/
theorem trainOk_make {l : Line} (t : Nat) {count : Nat} (hm : l.main = .collecting ∨ l.main = .through)
    (hn : 1 ≤ count ∧ count ≤ 15) (b : Nat) :
    ({ l with sub := .make, pulses := count, pulseBreak := b, reopened := false, threshold := some t } : Line).TrainOk :=
  ⟨fun _ => hm, by simp, fun _ => hn, by simp, by simp⟩

theorem trainOk_inTrain {l : Line} (hs : l.sub = .brk) (h : l.TrainOk) :
    (l.main = .collecting ∨ l.main = .through) ∧ 1 ≤ l.pulses ∧ l.pulses ≤ 15 := by
  obtain ⟨h1, -, h3, -⟩ := h
  exact ⟨h1 (by simp [hs]), h3 (by simp [hs])⟩

theorem moves_candidateBreak (n : LineNo) (s : State) : Moves s (candidateBreak n s) := moves_line {} id

theorem moves_breakStart (n : LineNo) (p : Profile) (marg : CondSet) (d : DevTime) (s : State) :
    Moves s (breakStart n p marg d s) := by
  simp only [breakStart]
  split
  · rename_i hm
    exact moves_abandonSeizure d hm
  · split
    · split
      · exact moves_candidateBreak n s
      · exact moves_candidateBreak n s
      · rename_i hs
        split
        · exact moves_line_raiseSet _ _ d {} (trainOk_break hs)
        · exact moves_line_raiseSet _ _ d {} (trainOk_reopen hs)
    · exact moves_line {} id

theorem moves_breakGlitch {n : LineNo} {s : State} (marg : CondSet) (d : DevTime) (hr : (s.line n).reopened = false) :
    Moves s (breakGlitch n marg d s) := by
  simp only [breakGlitch]
  split
  · exact moves_line {} id
  · exact moves_line {} id
  · rename_i hs
    exact moves_line_raiseSet _ _ d {} (trainOk_absorb hs hr)

theorem moves_takeFlash {n : LineNo} {s : State} (p : Profile) (d : DevTime) (h : (s.line n).main.inCall = true) :
    Moves s (takeFlash n p d s) := by
  unfold takeFlash
  extract_lets l full set s1 s2
  have h1 : OpenMoves n s s1 := openMoves_line (CallSame.kept {} id)
  split
  · exact moves_suspendLine (h1.trans (openMoves_handOver n _ _)) set _ d (by simp [s1, l, Line.applySet])
  · have hm : ((s1.setLine n ((s1.line n).flashRestart p)).line n).main.inCall = true := by
      rw [line_setLine_self, Line.flashRestart]
      split
      · rfl
      · simpa [s1, Line.applySet] using h
    have h2 : OpenMoves n s s2 := (h1.trans (openMoves_line (lineKept_flashRestart p _))).trans (openMoves_offerTo _ hm)
    exact .single (.event (h2.trans (openMoves_handOver n _ _)))

theorem moves_endBreakIdle {n : LineNo} {s : State} (p : Profile) (b : Nat) (d : DevTime)
    (h : (s.line n).main = .collecting ∨ (s.line n).main = .through) : Moves s (endBreakIdle n p b d s) := by
  unfold endBreakIdle
  split
  · exact moves_line {} fun _ => trainOk_make _ h (by omega) b
  · split
    · exact moves_takeFlash p d (inCall_of_dialling h)
    · exact moves_line_raiseSet _ _ d {} id

theorem moves_endBreakInTrain {n : LineNo} {s : State} (p : Profile) (b : Nat) (marg : CondSet) (d : DevTime)
    (hs : (s.line n).sub = .brk) : Moves s (endBreakInTrain n p b marg d s) := by
  unfold endBreakInTrain
  split
  · exact moves_line_raiseSet _ _ d {} fun _ => dropTrain_trainOk (s.line n)
  · split
    · refine moves_line_raiseSet _ _ d {} fun ht => ?_
      obtain ⟨hm, hn⟩ := trainOk_inTrain hs ht
      exact trainOk_make _ hm hn b
    · rename_i hr
      refine moves_line_raiseSet _ _ d {} fun ht => ?_
      obtain ⟨hm, hn⟩ := trainOk_inTrain hs ht
      have hok := trainOk_make (l := s.line n) (thresholdOf p (track p ((s.line n).pulseBreak + (s.line n).heldMake)
        (s.line n).estimate)) hm (count := min ((s.line n).pulses + 1) 15) (by omega) b
      rw [← Bool.eq_false_iff.2 hr] at hok
      exact hok

theorem moves_endBreakSuspended (n : LineNo) (p : Profile) (b : Nat) (d : DevTime) (s : State) :
    Moves s (endBreakSuspended n p b d s) := by
  unfold endBreakSuspended
  split
  · exact moves_line_handOver _ {} id
  · exact moves_line {} id

theorem moves_makeStart (n : LineNo) (p : Profile) (marg : CondSet) (d : DevTime) (s : State) :
    Moves s (makeStart n p marg d s) := by
  simp only [makeStart]
  split
  · rename_i hm
    exact moves_seizeLine p d hm
  · split
    · rename_i hc
      split
      · rename_i hg
        exact moves_breakGlitch marg d (by simpa [isBreakGlitch] using (Bool.and_eq_true_iff.1 hg).2)
      · split
        · exact moves_endBreakSuspended n p _ d s
        · rename_i hns
          have hm : (s.line n).main = .collecting ∨ (s.line n).main = .through := by
            rcases (inCall_iff _).1 hc with h | h | h
            · exact .inl h
            · exact .inr h
            · exact absurd h hns
          split
          · exact moves_endBreakIdle p _ d hm
          · exact moves_endBreakIdle p _ d hm
          · rename_i hs
            exact moves_endBreakInTrain p _ marg d hs
    · exact moves_line {} id

/-! ### The samples of a frame (R1, R3) -/

theorem moves_conditioningSample (n : LineNo) (p : Profile) (code : LoopCode) (d : DevTime) (s : State) :
    Moves s (conditioningSample n p code d s) := by
  have h1 : Moves s (s.setLine n ((s.line n).conditioned p code)) := moves_line {} id
  cases ht : (conditionLine p code (s.line n)).2 with
  | makeStart =>
    rw [conditioningSample_makeStart d ht]
    exact h1.trans (moves_makeStart n p _ d _)
  | breakStart =>
    rw [conditioningSample_breakStart d ht]
    exact h1.trans (moves_breakStart n p _ d _)
  | none =>
    rw [conditioningSample_quiet d ht]
    exact h1.trans (moves_raiseSet n _ _ d _)

theorem moves_sampleLine (code : LoopCode) (n : LineNo) (d : DevTime) (s : State) : Moves s (sampleLine code n d s) := by
  rcases sampleLine_cases code n d s with he | he | he | ⟨p, -, he⟩ <;> rw [he]
  · unfold Line.clearSample
    split
    · exact moves_line {} id
    · exact moves_line {} id
  · exact moves_line {} id
  · exact moves_conditioningSample n p code d s

theorem moves_sampleLines (frame : BitVec 192) (d : DevTime) (ns : List LineNo) (s : State) :
    Moves s (sampleLines frame d ns s) := by
  induction ns generalizing s with
  | nil => exact .refl
  | cons n rest ih => exact (moves_sampleLine _ n d s).trans (ih _)

/-! ### Releases and blocks (R10, R12, R22, R30 to R33) -/

/-- The release effects and then the adoption of a pending profile (R23, R35). -/
theorem moves_released {n : LineNo} {m : MainState} {s : State} (d : DevTime) (hm : m.inCall = false) :
    Moves s (adoptPending n d (releaseEffects n m d s)) :=
  (Relation.ReflTransGen.single (.release hm)).trans (moves_adoptPending d (by rw [releaseEffects_line]; exact hm))

theorem moves_releaseLine (n : LineNo) (d : DevTime) (s : State) : Moves s (releaseLine n d s) :=
  (moves_handOver _ s).trans (moves_released d rfl)

theorem moves_enterBlocked (n : LineNo) (reason : BlockReason) (d : DevTime) (s : State) :
    Moves s (enterBlocked n reason d s) := by
  have h1 : Moves s (handOver (lineRecord n d (.block reason)) (s.setLine n (s.line n).restart)) :=
    moves_line_handOver _ {} id
  simp only [enterBlocked]
  split
  · exact h1.trans (moves_released d rfl)
  · rename_i hc
    have hout : ((handOver (lineRecord n d (.block reason)) (s.setLine n (s.line n).restart)).line n).main.inCall
        = false := by
      rw [line_handOver, line_setLine_self]
      exact Bool.eq_false_iff.2 hc
    exact (h1.trans (moves_outside { sub := .inr rfl })).trans
      (moves_adoptPending d (by rw [line_setLine_self]; rfl))

theorem moves_leaveBlocked {n : LineNo} {s : State} {r : BlockReason} (reason : BlockReason) (d : DevTime)
    (h : (s.line n).main = .blocked r) : Moves s (leaveBlocked n reason d s) := by
  have hout : (s.line n).main.inCall = false := by simp [h, MainState.inCall]
  exact (moves_outside {}).trans (moves_handOver _ _)

/-! ### The request step (R174, R175) -/

theorem moves_inject (n : LineNo) (count : Nat) (keys : Word) (s : State) : Moves s (doInject n count keys s).1 := by
  simp only [doInject]
  split
  · rename_i ho
    have hd : (s.line n).main.dialling = true := by
      cases hd : (s.line n).main.dialling
      · simp [injectOutcome, hd] at ho
      · rfl
    exact .single (.event (openMoves_offerTo _ (inCall_of_dialling (dialling_iff.1 hd))))
  · exact .refl

theorem moves_flush (n : LineNo) (s : State) : Moves s (doFlush n s).1 := by
  simp only [doFlush]
  split
  · split
    · exact .refl
    · split
      · rename_i k hk
        exact (Relation.ReflTransGen.single (.keys (ks := (s.line n).store.take 1) (.inl hk) fun h => by simp [h])).trans
          (moves_setSender rfl Iff.rfl)
      · exact .single .flush
  · exact .refl

theorem moves_endNumber (n : LineNo) (d : DevTime) (s : State) : Moves s (doEndNumber n d s).1 := by
  simp only [doEndNumber]
  split
  · split
    · rename_i hm
      exact moves_evaluated _ _ _ d .refl hm.1
    · exact .refl
  · exact .refl

theorem moves_resume (n : LineNo) (s : State) : Moves s (doResume n s).1 := by
  simp only [doResume]
  split
  · rename_i hm
    split
    · rename_i t ht
      exact .single (.event (openMoves_line (lineKept_resumeTo hm ht)))
    · exact .refl
  · exact .refl

theorem moves_block (n : LineNo) (d : DevTime) (s : State) : Moves s (doBlock n d s).1 := by
  unfold doBlock
  split
  · exact .refl
  · exact .refl
  all_goals exact moves_enterBlocked n .admin d s

theorem moves_unblock (n : LineNo) (d : DevTime) (s : State) : Moves s (doUnblock n d s).1 := by
  unfold doUnblock
  split
  · rename_i hm
    exact moves_leaveBlocked .admin d hm
  · exact .refl

theorem moves_resetSpeed (n : LineNo) (s : State) : Moves s (doResetSpeed n s).1 := by
  simp only [doResetSpeed]
  split
  · split
    · exact .refl
    · exact moves_line {} id
  · exact .refl

theorem moves_clearFlags (n : LineNo) (s : State) : Moves s (doClearFlags n s).1 := moves_line {} id

theorem moves_request (code count : Nat) (keys : Word) (n : LineNo) (d : DevTime) (s : State) :
    Moves s (doRequest code count keys n d s).1 := by
  unfold doRequest
  split_ifs
  · exact .refl
  · exact moves_inject n count keys s
  · exact moves_flush n s
  · exact moves_endNumber n d s
  · exact moves_resume n s
  · exact moves_clearFlags n s
  · exact moves_block n d s
  · exact moves_unblock n d s
  · exact moves_resetSpeed n s
  · exact .refl

theorem moves_takeRequest (n : LineNo) (edition : Byte) {s : State} {r : State × RequestOutcome} (h : Moves s r.1) :
    Moves s (takeRequest n edition s r) := by
  unfold takeRequest acknowledge
  split
  · exact .refl
  · exact h.trans (moves_line {} id)

/-! ### The take-up of a profile (R164 to R173) -/

/-- Outside calls an accepted profile is adopted at once (R34, R172). -/
theorem lineKept_takenUp {l : Line} (edition : Byte) (p : Profile) (h : l.main.inCall = false) :
    LineKept l (({ l with profileEdition := some edition } : Line).adopt p)
      ∧ ¬ (({ l with profileEdition := some edition } : Line).adopt p).Wants := by
  have hsame : CallSame l { l with profileEdition := some edition } := {}
  have hkept := outsideKept_adopt (l := { l with profileEdition := some edition }) p h
  exact ⟨(hsame.kept id).trans hkept.kept, hkept.not_wants⟩

theorem moves_profileTaken (n : LineNo) (edition : Byte) (ws : List Word) (s : State) :
    Moves s (s.setLine n ((s.line n).profileTaken edition ws)) := by
  unfold Line.profileTaken
  split
  · exact moves_line {} id
  · exact moves_line {} id
  · simp only [Line.takeProfile]
    split
    · exact moves_line {} id
    · rename_i p _ hc
      obtain ⟨hkept, hwant⟩ := lineKept_takenUp edition p (Bool.eq_false_iff.2 fun h => hc (.inl h))
      exact .single (.line hkept fun _ hw => absurd hw hwant)

theorem moves_takeUp (n : LineNo) (got : List Word) (d : DevTime) (s : State) : Moves s (takeUp n got d s) := by
  refine Relation.ReflTransGen.trans (b := profileStep n (byteOf (got.getD 0 0) 0) (got.drop 2) d s) ?_
    (moves_takeRequest n _ (moves_request _ _ _ n d _))
  simp only [profileStep]
  split
  · exact .refl
  · exact (moves_profileTaken n _ _ s).trans (moves_handOver _ _)

end Sys2Proof.Machine
end

section
/-! SUPPORT. Every command as moves of the line records and the pool; with it the laws of trains (O56), and of calls,
senders and the wait list (O58), through every step. -/

namespace Sys2Proof.Machine

/-! ### Commands that leave the pool -/

theorem whenDue_pool {due : Bool} {s t u : State} (h : whenDue due s t = .next u) (ht : t.pool = s.pool) :
    u.pool = s.pool := whenDue_keeps (P := fun x => x.pool = s.pool) h rfl fun _ => ht

@[simp] theorem endSequence_pool (s : State) : (endSequence s).pool = s.pool := (endSequence_spec s).2.2.1

theorem planOutcome_pool (edition : Byte) (got : List Word) (s : State) : (planOutcome edition got s).pool = s.pool := by
  simp only [planOutcome, handOver_pool]
  split <;> rfl

theorem haltPort_pool (s : State) : (haltPort s).pool = s.pool := by
  unfold haltPort enterHalting
  split
  · rfl
  · simp only
    split <;> rfl
  · rfl
  · rfl
  · rfl

/-- The commands that reach neither a line record nor the pool: those of keepsLines but for the steps of senders. -/
def keepsPool : Instr → Bool
  | .qualifyTimeout | .burstStart _ | .burstExpiry _ => false
  | i => keepsLines i

theorem exec_pool {i : Instr} {s t : State} (hi : keepsPool i = true) (h : exec i s = .next t) : t.pool = s.pool := by
  cases i
  case timeRollover => exact whenDue_pool (show execTimeRollover s = .next t from h) rfl
  case lineSlotReceived c v => exact whenDue_pool (show execLineSlotReceived c v s = .next t from h) rfl
  case busTimeout => exact whenDue_pool (show execBusTimeout s = .next t from h) rfl
  case run => exact whenDue_pool (show execRun s = .next t from h) rfl
  case clearFault => exact whenDue_pool (show execClearFault s = .next t from h) rfl
  case areaBaseWrite v => exact whenDue_pool (show execAreaBaseWrite v s = .next t from h) rfl
  case statusWrite v => exact whenDue_pool (show execStatusWrite v s = .next t from h) rfl
  case attentionWrite v => exact whenDue_pool (show execAttentionWrite v s = .next t from h) rfl
  case halt => exact whenDue_pool (show execHalt s = .next t from h) (haltPort_pool s)
  case holdOffClear => exact whenDue_pool (show execHoldOffClear s = .next t from h) (requestJournal_pool _)
  case ignoredCommand | resetNReturnsHigh | supplyInOperatingRange => cases h; rfl
  case dividerWindowClose | sequenceStart | busGrant | busError =>
    simp only [exec, execDividerWindowClose, execSequenceStart, execBusGrant, execBusError] at h
    split at h
    · exact whenDue_pool h rfl
    · cases h; rfl
  case headerVisitComplete | journalCommit =>
    simp only [exec, execHeaderVisitComplete, execJournalCommit] at h
    split at h
    · exact whenDue_pool h (endSequence_pool _)
    · cases h; rfl
  case planLoadOutcome =>
    simp only [exec, execPlanLoadOutcome] at h
    split at h
    · exact whenDue_pool h (planOutcome_pool _ _ s)
    · cases h; rfl
  case transferDone data =>
    simp only [exec, execTransferDone] at h
    split at h
    · refine whenDue_pool h ?_
      split
      · rfl
      · exact (readDone_spec data _ _).2.2.1
    · cases h; rfl
  case visitComplete =>
    simp only [exec, execVisitComplete] at h
    split at h
    · split at h
      · exact whenDue_pool h (endSequence_pool _)
      all_goals cases h; rfl
    · cases h; rfl
  case headerTakeUp =>
    simp only [exec, execHeaderTakeUp] at h
    split at h
    · refine whenDue_pool h ?_
      split <;> rfl
    · cases h; rfl
  case headerCheck =>
    simp only [exec, execHeaderCheck] at h
    split at h
    · refine whenDue_pool h ?_
      split
      · rfl
      · split
        · exact endSequence_pool _
        · rfl
    · cases h; rfl
  case releaseRead =>
    simp only [exec, execReleaseRead] at h
    split at h
    · refine whenDue_pool h ?_
      unfold readRelease
      simp only
      split
      · exact endSequence_pool _
      · rfl
    · cases h; rfl
  all_goals cases hi

theorem keepsPool_keepsLines {i : Instr} (h : keepsPool i = true) : keepsLines i = true := by
  unfold keepsPool at h
  split at h
  · rfl
  · rfl
  · rfl
  · exact h

/-- Moves from a state with the same line records and pool. -/
theorem moves_from {s t u : State} (h : Moves t u) (hl : t.lines = s.lines) (hp : t.pool = s.pool) : Moves s u :=
  (moves_rest hl hp).trans h

/-! ### The clock: tick boundaries, frames and changes of state (R98, R133, R140, R141) -/

theorem moves_tickTaken {s t : State} (h : TickTaken s t) : Moves s t := by
  obtain ⟨-, -, hl, hk, hw, hj, -⟩ := h
  exact .single (.tick hl hw hj fun k => by rw [hk]; exact ⟨rfl, Iff.rfl⟩)

theorem moves_tickBoundary (s : State) : Moves s (tickBoundary s) := moves_tickTaken (tickBoundary_spec s).1

theorem moves_startFrame (s : State) : Moves s (startFrame s) := by
  by_cases hf : (s.clk.frame + 1) % 4 = 0
  · exact moves_tickTaken (startFrame_boundary s hf).1
  · obtain ⟨⟨hl, hp, -⟩, -⟩ := startFrame_inside s hf
    exact moves_rest hl hp

/-- A frame start after a change of the clock alone. -/
theorem moves_startFrame_of {s t : State} (hl : t.lines = s.lines) (hp : t.pool = s.pool) : Moves s (startFrame t) :=
  moves_from (moves_startFrame t) hl hp

theorem pauseSender_kept (x : Sender) :
    (pauseSender x).line = x.line ∧ ((pauseSender x).state = .free ↔ x.state = .free) := by
  unfold pauseSender
  split
  · rename_i h
    rcases h with h | h <;> simp [h]
  · exact ⟨rfl, Iff.rfl⟩

theorem regapSender_kept (x : Sender) :
    (regapSender x).line = x.line ∧ ((regapSender x).state = .free ↔ x.state = .free) := by
  unfold regapSender
  split
  · rename_i h
    simp [Sender.enterGap, h]
  · exact ⟨rfl, Iff.rfl⟩

theorem moves_changeClock (st : ClockState) (s : State) : Moves s (changeClock st s) := by
  obtain ⟨-, -, -, hl, -, -, -, -, -, -, hw, hj, hk⟩ := changeClock_spec st s
  refine .single (.senders hl hw hj fun k => ?_)
  rw [hk]
  split
  · exact regapSender_kept _
  · split
    · exact pauseSender_kept _
    · exact ⟨rfl, Iff.rfl⟩

theorem moves_changeClock_of {s t : State} (st : ClockState) (hl : t.lines = s.lines) (hp : t.pool = s.pool) :
    Moves s (changeClock st t) := moves_from (moves_changeClock st t) hl hp

theorem advanceSounding_kept (s : State) (x : Sender) :
    (advanceSounding s x).line = x.line ∧ ((advanceSounding s x).state = .free ↔ x.state = .free) := by
  have hadv : x.advance.line = x.line ∧ x.advance.state = x.state := by
    unfold Sender.advance
    split <;> exact ⟨rfl, rfl⟩
  unfold advanceSounding
  split
  · split
    · split
      · exact ⟨hadv.1, by rw [hadv.2]⟩
      · exact ⟨rfl, Iff.rfl⟩
    · exact ⟨rfl, Iff.rfl⟩
  · exact ⟨rfl, Iff.rfl⟩

theorem moves_composeFrame (s : State) : Moves s (composeFrame s) :=
  (moves_mapSenders (advanceSounding_kept s)).trans (moves_rest rfl rfl)

theorem moves_nextLockedFrame (missing : Nat) (s : State) : Moves s (nextLockedFrame missing s) :=
  moves_startFrame_of rfl rfl

theorem moves_enterLocked (s : State) : Moves s (enterLocked s) := by
  refine Relation.ReflTransGen.trans ?_ (moves_composeFrame _)
  exact (moves_startFrame s).trans (moves_changeClock_of .locked rfl rfl)

theorem moves_takeEdge (s : State) : Moves s (takeEdge s) := by
  unfold takeEdge
  split
  · exact moves_changeClock_of .qualifying rfl rfl
  · exact moves_changeClock_of .qualifying rfl rfl
  · simp only [qualifyEdge]
    split
    · split
      · exact moves_enterLocked s
      · exact moves_rest rfl rfl
    · exact moves_rest rfl rfl
  · unfold lockedEdge
    split
    · exact .refl
    · exact (moves_nextLockedFrame 0 s).trans (moves_composeFrame _)

/-! ### The senders' own steps (R134, R135) -/

theorem moves_recompose (moved : LineNo → Bool) (s : State) : Moves s (recompose moved s) := by
  unfold recompose
  split
  · exact moves_rest rfl rfl
  · exact .refl

/-- A burst begins on a sender that is not FREE. -/
theorem moves_beginBurst {k : SenderNo} (n : LineNo) {s : State} (h : (s.sender k).state ≠ .free) :
    Moves s (beginBurst k n s) := by
  simp only [beginBurst]
  split
  · refine (moves_setSender (k := k) (x := (((s.sender k).startBurst ((s.line n).store.head?.map (·.key))).advance))
      ?_ ?_).trans (moves_rest rfl rfl)
    · unfold Sender.advance
      split <;> rfl
    · unfold Sender.advance
      split <;> simp [Sender.startBurst, h]
  · exact moves_setSender rfl (by simp [Sender.startBurst, h])

theorem moves_burstStart {k : SenderNo} {s t : State} (h : execBurstStart k s = .next t) : Moves s t := by
  unfold execBurstStart at h
  split at h
  · refine whenDue_keeps h .refl fun hd => moves_beginBurst _ ?_
    simp only [Bool.and_eq_true, beq_iff_eq] at hd
    obtain ⟨⟨⟨-, hon⟩, -⟩, -⟩ := hd
    simp [hon]
  · cases h
    exact .refl

theorem moves_takeBurstExpiry (k : SenderNo) (s : State) : Moves s (takeBurstExpiry k s) := by
  unfold takeBurstExpiry
  split
  · split
    · rename_i hd
      simp only [burstExpired, Bool.and_eq_true, beq_iff_eq] at hd
      obtain ⟨-, ⟨hon, -⟩, -⟩ := hd
      refine Relation.ReflTransGen.trans ?_ (moves_recompose _ _)
      exact moves_setSender rfl (by simp [Sender.enterGap, hon])
    · exact .refl
  · exact .refl

theorem moves_expireGap {k : SenderNo} {n : LineNo} {s : State} (hl : (s.sender k).line = some n)
    (hg : (s.sender k).state = .gap) : Moves s (expireGap k n s) := by
  have hsame : ∀ x : Sender, x.line = (s.sender k).line → x.state = (s.sender k).state → Moves s (s.setSender k x) :=
    fun x h1 h2 => moves_setSender h1 (by rw [h2])
  simp only [expireGap]
  split
  · exact (hsame { s.sender k with resendMark := false } rfl rfl).trans (moves_beginBurst n (by simp [hg]))
  · have h1 : Moves s ((s.setSender k { s.sender k with keysSent := bump (s.sender k).keysSent }).setLine n
        { s.line n with store := (s.line n).store.drop 1 }) := by
      refine (hsame { s.sender k with keysSent := bump (s.sender k).keysSent } rfl rfl).tail ?_
      exact .keys (k := k) (.inr (by simp [hl])) fun h => by simpa using congrArg (List.drop 1) h
    split
    · rename_i he
      refine Relation.ReflTransGen.trans ?_ (moves_recompose _ _)
      exact h1.tail (.free (n := n) (by simp [hl]) (by simpa using he))
    · refine (h1.trans (moves_setSender ?_ ?_)).trans (moves_beginBurst n ?_)
      · rfl
      · rfl
      · simp [hg]

theorem moves_takeGapExpiry (k : SenderNo) (s : State) : Moves s (takeGapExpiry k s) := by
  unfold takeGapExpiry
  split
  · rename_i n p hl _
    split
    · rename_i hd
      simp only [gapExpired, Bool.and_eq_true, beq_iff_eq] at hd
      obtain ⟨-, hg, -⟩ := hd
      exact moves_expireGap hl hg
    · exact .refl
  · exact .refl

theorem moves_takeAllExpiries (ks : List SenderNo) (s : State) : Moves s (takeAllExpiries ks s) := by
  induction ks generalizing s with
  | nil => exact .refl
  | cons k rest ih => exact ((moves_takeBurstExpiry k s).trans (moves_takeGapExpiry k _)).trans (ih _)

theorem moves_expiriesBeforeLoss (s : State) : Moves s (expiriesBeforeLoss s) := by
  unfold expiriesBeforeLoss
  split
  · exact moves_takeAllExpiries _ s
  · exact .refl

theorem moves_filledFrame {s t : State} (h : execFilledFrame s = .next t) : Moves s t := by
  refine whenDue_keeps h .refl fun _ => ?_
  have h1 : Moves s (nextLockedFrame (s.clk.missing + 1) { s with clk := s.clk.passTo Config.maxSpacing }) :=
    moves_startFrame_of rfl rfl
  split
  · exact (h1.trans (moves_expiriesBeforeLoss _)).trans (moves_changeClock_of .holdover rfl rfl)
  · exact h1.trans (moves_composeFrame _)

/-! ### The expiries of a line -/

theorem moves_guardExpiry {n : LineNo} {s t : State} (h : execGuardExpiry n s = .next t) : Moves s t := by
  refine whenDue_keeps h .refl fun hd => moves_enterCollecting _ ?_
  have hg : (s.line n).guardDue = true := (Bool.and_eq_true_iff.1 hd).2
  unfold Line.guardDue at hg
  split at hg
  · simp only [Bool.and_eq_true, beq_iff_eq] at hg
    exact hg.1.1
  · cases hg

theorem moves_interdigitExpiry {n : LineNo} {s t : State} (h : execInterdigitExpiry n s = .next t) : Moves s t := by
  unfold execInterdigitExpiry at h
  split at h
  · rename_i p _
    refine whenDue_keeps h .refl fun hd => moves_endDigit p _ ?_
    have hi : (s.line n).interdigitDue = true := (Bool.and_eq_true_iff.1 hd).2
    unfold Line.interdigitDue at hi
    split at hi
    · simp only [Bool.and_eq_true] at hi
      exact inCall_of_dialling (dialling_iff.1 hi.1.1)
    · cases hi
  · cases h
    exact .refl

theorem moves_completionTimerExpiry {n : LineNo} {s t : State} (h : execCompletionTimerExpiry n s = .next t) :
    Moves s t := by
  unfold execCompletionTimerExpiry at h
  split at h
  · rename_i p _
    refine whenDue_keeps h .refl fun hd => moves_evaluated p _ _ _ .refl ?_
    have hc : (s.line n).completionDue = true := (Bool.and_eq_true_iff.1 hd).2
    unfold Line.completionDue at hc
    split at hc
    · simp only [Bool.and_eq_true, beq_iff_eq] at hc
      exact hc.1.1.1
    · cases hc
  · cases h
    exact .refl

theorem moves_faultReturn {n : LineNo} {s t : State} (h : execFaultReturn n s = .next t) : Moves s t := by
  refine whenDue_keeps h .refl fun hd => moves_leaveBlocked .fault _ (r := .fault) ?_
  simp only [Line.faultReturnDue, Bool.and_eq_true, beq_iff_eq] at hd
  exact hd.2.2

theorem moves_lineTakeUp {now : Bool} {s t : State} (h : execLineTakeUp now s = .next t) : Moves s t := by
  unfold execLineTakeUp at h
  split at h
  · split at h
    · exact whenDue_keeps h .refl fun _ => (moves_takeUp _ _ _ s).trans (moves_rest rfl rfl)
    all_goals
      cases h
      exact .refl
  · cases h
    exact .refl

/-! ### Every command -/

theorem moves_reset (cause : ResetCause) (part : Part) (s : State) : Moves s (resetPart cause part s) :=
  .single (.reset rfl rfl)

/-- A request step of its own (R174). -/
theorem moves_requested {n : LineNo} {edition : Byte} {due : Bool} {s t : State} {r : State × RequestOutcome}
    (h : whenDue due s (takeRequest n edition s r) = .next t) (hr : Moves s r.1) : Moves s t :=
  whenDue_keeps h .refl fun _ => moves_takeRequest n edition hr

theorem exec_moves {i : Instr} {s t : State} (h : exec i s = .next t) : Moves s t := by
  by_cases hi : keepsPool i = true
  · exact moves_rest (exec_lines (keepsPool_keepsLines hi) h) (exec_pool hi h)
  cases i
  case powerOn => cases h; exact moves_reset _ _ _
  case pinReset c => exact whenDue_keeps (show execPinReset c s = .next t from h) .refl fun _ => moves_reset _ _ _
  case softReset => exact whenDue_keeps (show execSoftReset s = .next t from h) .refl fun _ => moves_reset _ _ _
  case startUpHoldEnd =>
    exact whenDue_keeps (show execStartUpHoldEnd s = .next t from h) .refl fun _ =>
      moves_from (moves_tickBoundary _) rfl rfl
  case frameStart =>
    exact whenDue_keeps (show execFrameStart s = .next t from h) .refl fun _ => moves_startFrame_of rfl rfl
  case xfsEdge c =>
    exact whenDue_keeps (show execXfsEdge c s = .next t from h) .refl fun _ => moves_from (moves_takeEdge _) rfl rfl
  case lockHandoverTimeout =>
    exact whenDue_keeps (show execLockHandoverTimeout s = .next t from h) .refl fun _ => moves_startFrame_of rfl rfl
  case qualifyTimeout =>
    exact whenDue_keeps (show execQualifyTimeout s = .next t from h) .refl fun _ => moves_changeClock_of _ rfl rfl
  case filledFrame => exact moves_filledFrame h
  case scanFrameComplete f =>
    exact whenDue_keeps (show execScanFrameComplete f s = .next t from h) .refl fun _ =>
      moves_from (moves_sampleLines f _ _ _) rfl rfl
  case guardExpiry n => exact moves_guardExpiry h
  case interdigitExpiry n => exact moves_interdigitExpiry h
  case completionTimerExpiry n => exact moves_completionTimerExpiry h
  case release n => exact whenDue_keeps (show execRelease n s = .next t from h) .refl fun _ => moves_releaseLine n _ s
  case faultBlock n =>
    exact whenDue_keeps (show execFaultBlock n s = .next t from h) .refl fun _ => moves_enterBlocked n .fault _ s
  case faultReturn n => exact moves_faultReturn h
  case burstStart k => exact moves_burstStart h
  case burstExpiry k => cases h; exact moves_takeBurstExpiry k s
  case gapExpiry k => cases h; exact moves_takeGapExpiry k s
  case lineTakeUp now => exact moves_lineTakeUp h
  case requestNone n e => exact moves_requested (r := doNone s) (show execNone n e s = .next t from h) .refl
  case inject n e c ks => exact moves_requested (show execInject n e c ks s = .next t from h) (moves_inject n _ ks s)
  case flush n e => exact moves_requested (show execFlush n e s = .next t from h) (moves_flush n s)
  case endNumber n e => exact moves_requested (show execEndNumber n e s = .next t from h) (moves_endNumber n _ s)
  case resume n e => exact moves_requested (show execResume n e s = .next t from h) (moves_resume n s)
  case clearFlags n e => exact moves_requested (show execClearFlags n e s = .next t from h) (moves_clearFlags n s)
  case block n e => exact moves_requested (show execBlock n e s = .next t from h) (moves_block n _ s)
  case unblock n e => exact moves_requested (show execUnblock n e s = .next t from h) (moves_unblock n _ s)
  case resetSpeed n e => exact moves_requested (show execResetSpeed n e s = .next t from h) (moves_resetSpeed n s)
  case unknownRequest n e c =>
    exact moves_requested (r := doUnknown s) (show execUnknownRequest n e c s = .next t from h) .refl
  all_goals exact absurd rfl hi

theorem step_moves {s t : State} (h : step s = .next t) : Moves s t := by
  unfold step at h
  split at h
  · rename_i c rest _
    exact moves_from (exec_moves h) rfl rfl
  · cases h
    exact .refl

/-- The laws of calls and of the pool make PoolSafe, the premise being that every line that should wait does. -/
theorem poolSafe_of_laws {s : State} (hc : CallLaws s) (hp : PoolLaws s) : PoolSafe (WaitLaw s) s := by
  obtain ⟨hsend, hlist⟩ := (poolLaws_iff s).1 hp
  exact ⟨hc, hsend, hlist, (waitLaw_iff s).1⟩

/-- Settles O58: every change a command makes to a line record and to the pool keeps their laws together. -/
theorem callAndPoolLawsKept : Obligations.CallAndPoolLawsKept := by
  intro s t hc hp he
  have h := (step_moves he).poolSafe (poolSafe_of_laws hc hp)
  exact ⟨h.calls, (poolLaws_iff t).2 ⟨h.senders, h.list⟩, fun hw => (waitLaw_iff t).2 (h.waits hw)⟩

/-- Settles O56: every change a command makes to a line record keeps the law of its train fields. -/
theorem trainLawsKept : Obligations.TrainLawsKept := fun _ _ h he => (step_moves he).trainLaws h

end Sys2Proof.Machine
end

section
/-! SUPPORT. The release of a line (O24) and the guard expiry (O21). -/

namespace Sys2Proof.Machine

/-! ### The release (R22 to R24, R139) -/

/-- A sender cut while no other line waits stays FREE (R130). -/
theorem releaseEffects_alone {n : LineNo} {k : SenderNo} (m : MainState) (d : DevTime) {s : State}
    (ha : (s.line n).attached = some k) (hw : ∀ e ∈ s.pool.waitList, e.line = n) :
    (releaseEffects n m d s).sender k = Sender.reset := by
  have hempty : s.pool.waitList.filter (fun e => e.line != n) = [] :=
    List.filter_eq_nil_iff.2 fun e he => by simpa using hw e he
  have hcut : releaseEffects n m d s
      = arbitrate false (freeSender k n .cut d (leaveWait n (s.setLine n ((s.line n).releaseTo m)))) := by
    simp [releaseEffects, cutSender, Line.releaseTo, Line.dropTrain, ha]
  rw [hcut, arbitrate_none_waiting]
  · exact (freeSender_spec ..).2.2.2.2
  · simpa [freeSender, detach, leaveWait] using hempty

/-- What a release makes of the pool: the line waits no longer, and a sender it held goes on (R128, R130, R139). -/
theorem releaseLine_pool (n : LineNo) (d : DevTime) (s : State) :
    (∀ k, FreedGoesOn false k n s (releaseLine n d s))
      ∧ ((s.line n).attached = none →
        LeavesTheList n s (releaseLine n d s) ∧ OtherLinesSame n s (releaseLine n d s))
      ∧ (∀ e ∈ (releaseLine n d s).pool.waitList, e.line ≠ n)
      ∧ ∀ k, (s.line n).attached = some k → (∀ e ∈ s.pool.waitList, e.line = n) →
        (releaseLine n d s).sender k = Sender.reset := by
  unfold releaseLine
  generalize hs1 : handOver (lineRecord n d (.release (s.line n).store.length)) s = s1
  have hl1 : ∀ m, s1.line m = s.line m := fun m => by simp [← hs1]
  have hp1 : s1.pool = s.pool := by simp [← hs1]
  have ho1 : OtherLinesSame n s1 s := fun m _ => (hl1 m).symm
  obtain ⟨⟨⟨hb, -⟩, -⟩, -, hp, ho⟩ := adoptPending_frame n d (releaseEffects n .onHook d s1)
  obtain ⟨-, -, -, -, -, -, hclk, -⟩ := hb
  refine ⟨fun k => (freedGoesOn_iff ..).2 fun hpool harb ha => ?_, fun ha => ?_, ?_, fun k ha hw => ?_⟩
  · have hn := hpool.absent ha
    obtain ⟨-, -, hd, -⟩ := hpool
    have harb1 : ArbiterLaw s1 := by unfold ArbiterLaw State.sender at *; rwa [hp1]
    exact (releaseEffects_freed .onHook d (by rwa [hp1]) (by rwa [hp1]) harb1 (by rwa [hl1])).congr
      (by rwa [hp1]) hp1.symm ho1 hp ho hclk
  · obtain ⟨hw, hl⟩ := releaseEffects_unattached .onHook d (s := s1) (by rwa [hl1])
    exact ⟨by unfold LeavesTheList at *; rw [hp, hw, hp1], fun m hm => by rw [ho m hm, hl m hm, hl1]⟩
  · rw [hp]
    exact releaseEffects_absent n _ d s1
  · have h := releaseEffects_alone .onHook d (s := s1) (by rwa [hl1]) (by rwa [hp1])
    simpa [State.sender, hp] using h

/-- Settles O24: a release is due, and is the release effects between its record and a pending adoption. -/
theorem releaseEndsTheCall : Obligations.ReleaseEndsTheCall := by
  intro n p s hw hp hm hl hr
  have hdue : (s.line n).releaseDue = true := by
    simp [Line.releaseDue, hp, (inCall_iff _).2 hm, hl, hr]
  obtain ⟨hgo, hlist, habs, halone⟩ := releaseLine_pool n s.scan.sampleAt s
  obtain ⟨⟨-, hrec⟩, -⟩ := releaseLine_spec n s.scan.sampleAt s
  refine ⟨_, whenDue_true (by simp [working_iff.2 hw, hdue]) _ _, releaseLine_line n _ s, habs, fun k ha halw => ?_, hgo,
    hlist, hrec⟩
  rw [show s.sampleTime = s.scan.sampleAt from rfl, halone k ha halw]
  exact ⟨rfl, rfl⟩

/-! ### The guard expiry (R21) -/

/-- Settles O21: the guard is due, and the line is seized with its record. -/
theorem guardExpiryCollects : Obligations.GuardExpiryCollects := by
  intro n p s hw hp hm hl hg
  have hdue : (s.line n).guardDue = true := by simp [Line.guardDue, hp, hm, hl, hg]
  refine ⟨_, whenDue_true (by simp [working_iff.2 hw, hdue]) _ _, ?_, fun m hmn => ?_, ?_, ?_, ?_⟩
  · simp [enterCollecting, Line.seize, Line.dropTrain, trainIdle]
  · simp [enterCollecting, hmn]
  · simp [enterCollecting, OtherBlocksSame]
  · simp [enterCollecting]
  · exact (handOver_recorded (lineRecord n s.scan.sampleAt .seize) (s.setLine n (s.line n).seize)).congr
      (s' := s) ⟨rfl, rfl⟩ ⟨rfl, rfl⟩

end Sys2Proof.Machine
end

section
/-! SUPPORT. The Sender Pool after an event that leaves its line in COLLECTING or THROUGH and takes no key away (R105, R127,
R129 to R131, R137). -/

namespace Sys2Proof.Machine

/-! ### The joining test of a line that neither waits nor holds a sender (R127, R130, R131) -/

/-- The arbiter takes the lowest-numbered FREE sender (R131). -/
theorem freeSender?_lowest {s : State} {k : SenderNo} (hk : (s.sender k).state = .free)
    (hlow : ∀ j, j < k → (s.sender j).state ≠ .free) : freeSender? s = some k := by
  cases hf : freeSender? s with
  | none =>
    have := List.find?_eq_none.1 (show List.find? (fun j => (s.sender j).state == .free) allSenders = none from hf) k
      (by simp [allSenders])
    simp [hk] at this
  | some j =>
    obtain ⟨-, before, after, hall, hbefore⟩ := List.find?_eq_some_iff_append.1
      (show List.find? (fun j => (s.sender j).state == .free) allSenders = some j from hf)
    have hmem : k ∈ before ++ j :: after := hall ▸ List.mem_finRange k
    have hsorted : (before ++ j :: after).Pairwise (· < ·) := hall ▸ List.pairwise_lt_finRange 16
    obtain ⟨-, hafter, -⟩ := List.pairwise_append.1 hsorted
    rcases List.mem_append.1 hmem with h | h
    · have := hbefore k h
      simp [hk] at this
    · rcases List.mem_cons.1 h with rfl | h
      · rfl
      · exact absurd (freeSender?_some hf) (hlow j ((List.pairwise_cons.1 hafter).1 k h))

/-- One line waits and a sender is FREE: the line is granted it, and no line is left. -/
theorem arbitrate_single {b : Bool} {s : State} {k : SenderNo} {e : WaitEntry} (hk : freeSender? s = some k)
    (hw : s.pool.waitList = [e]) : arbitrate b s = attach b k e.line (leaveWait e.line s) := by
  have h1 : grantOne b s = attach b k e.line (leaveWait e.line s) := by simp [grantOne, hk, hw]
  have hempty : (attach b k e.line (leaveWait e.line s)).pool.waitList = [] := by simp [attach, leaveWait, hw]
  unfold arbitrate
  rw [grantMany, h1]
  refine grantMany_same ?_ 15
  unfold grantOne
  rw [hempty]
  split
  · rename_i h
    cases h
  · rfl

theorem joinTest_joins {n : LineNo} {s : State} (hw : (s.line n).Wants) (hn : ∀ e ∈ s.pool.waitList, e.line ≠ n) :
    joinTest n s = arbitrate false (joinWait n s) := by
  have hj : mayJoin n s = true := mayJoin_iff.2 ⟨hw, fun ⟨e, he, h⟩ => hn e he h⟩
  simp [joinTest, hj]

/-- A line that joins an empty list while a sender is FREE is granted it at once. -/
theorem joinTest_granted {n : LineNo} {k : SenderNo} {s : State} (hw : (s.line n).Wants) (hlist : s.pool.waitList = [])
    (hk : freeSender? s = some k) :
    Granted false k n (joinTest n s) ∧ (joinTest n s).pool.waitList = []
      ∧ (∀ j, j ≠ k → (joinTest n s).sender j = s.sender j) ∧ OtherLinesSame n s (joinTest n s) := by
  rw [joinTest_joins hw (by simp [hlist]),
    arbitrate_single (s := joinWait n s) (k := k) (e := ⟨n, s.pool.joins⟩) hk (by simp [joinWait, hlist, insertWait])]
  refine ⟨?_, ?_, fun j hj => ?_, fun m hm => ?_⟩
  · simp [Granted, attach, grantedSender, Sender.reset, joinWait, leaveWait]
  · simp [attach, leaveWait, joinWait, hlist, insertWait]
  · rw [attach, sender_setLine, sender_setSender, if_neg hj]
    rfl
  · rw [attach, line_setLine_of_ne _ _ hm]
    rfl

/-- A line that joins while no sender is FREE waits at the tail of its class. -/
theorem joinTest_waits {n : LineNo} {s : State} (hw : (s.line n).Wants) (hn : ∀ e ∈ s.pool.waitList, e.line ≠ n)
    (hk : ∀ k, (s.sender k).state ≠ .free) : joinTest n s = joinWait n s := by
  rw [joinTest_joins hw hn]
  exact arbitrate_none_free false hk

/-- The joining test leaves every store. -/
theorem joinTest_store (n m : LineNo) (s : State) : ((joinTest n s).line m).store = (s.line m).store := by
  rw [(joinTest_event n s).2.1 m]

theorem cls_normal_or_urgent (c : LineClass) : c = .normal ∨ c = .urgent := by cases c <;> simp

/-- The place of a join in a list in order: the tail of its class (R126, R127). -/
theorem joinWait_place {n : LineNo} {s : State} (h : ListOk s.line s.pool.waitList s.pool.joins) :
    ∃ before after, (joinWait n s).pool.waitList = before ++ ⟨n, s.pool.joins⟩ :: after
      ∧ before ++ after = s.pool.waitList
      ∧ (∀ f ∈ before, (s.line f.line).cls = .urgent ∨ (s.line n).cls = .normal)
      ∧ ∀ f ∈ after, (s.line f.line).cls = .normal ∧ (s.line n).cls = .urgent := by
  obtain ⟨before, after, he, hlist, hb, ha⟩ := insertWait_ordered h.order ⟨n, s.pool.joins⟩
  refine ⟨before, after, he, hlist, fun f hf => ?_, fun f hf => ?_⟩
  · have hnot := hb f hf
    rcases cls_normal_or_urgent (s.line f.line).cls with hc | hc
    · rcases cls_normal_or_urgent (s.line n).cls with hn | hn
      · exact .inr hn
      · exact absurd (.inl ⟨hn, hc⟩) hnot
    · exact .inl hc
  · rcases ha f hf with ⟨h1, h2⟩ | ⟨-, h2⟩
    · exact ⟨h2, h1⟩
    · have hlt : f.joined < s.pool.joins := (h.wants f (hlist ▸ List.mem_append_right before hf)).2
      exact absurd h2 (by simp only; omega)

/-! ### The pool after an event -/

/-- An event that leaves the pool: the line's entry, if it has one, stays. -/
theorem goesOnWaiting_same {n : LineNo} {s t : State} (hpool : PoolLaws s) (hp : t.pool = s.pool) (ho : OtherLinesSame n s t)
    (ha : (t.line n).attached = (s.line n).attached) (hc : (t.line n).cls = (s.line n).cls) : GoesOnWaiting n s t := by
  obtain ⟨-, hlist⟩ := (poolLaws_iff s).1 hpool
  rintro e he rfl
  exact ⟨ha.trans (hlist.line_wants he).2.2, ho, fun _ => hp, fun h => absurd hc h⟩

/-- A raise to URGENT puts the line's entry by its joining time among the URGENT entries (R105, R129). -/
theorem goesOnWaiting_raised {n : LineNo} {s t : State} (hpool : PoolLaws s)
    (hp : t.pool = (requeue n (s.setLine n { s.line n with cls := .urgent })).pool) (ho : OtherLinesSame n s t)
    (ha : (t.line n).attached = (s.line n).attached) (hc : (t.line n).cls ≠ (s.line n).cls) : GoesOnWaiting n s t := by
  obtain ⟨-, hlist⟩ := (poolLaws_iff s).1 hpool
  rintro e he hn
  refine ⟨ha.trans (hn ▸ (hlist.line_wants he).2.2), ho, fun h => absurd h hc, fun _ => ?_⟩
  rw [requeue_waits (s := s.setLine n _) hlist.lines he hn] at hp
  have hother : ∀ f ∈ s.pool.waitList.filter (fun f => f.line != n), f ∈ s.pool.waitList ∧ f.line ≠ n :=
    fun f hf => by simpa using hf
  obtain ⟨before, after, hi, hl, hb, haf⟩ := insertWait_ordered (s := s.setLine n { s.line n with cls := .urgent })
    (hlist.leave _).order e
  rw [show (s.setLine n { s.line n with cls := .urgent }).pool = s.pool from rfl, hi] at hp
  refine ⟨before, after, hp, hl, fun f hf => ?_, fun f hf => ?_⟩
  · obtain ⟨hmem, hfn⟩ := hother f (hl ▸ List.mem_append_left after hf)
    have hnot := hb f hf
    have hj : f.joined ≠ e.joined := fun hj => hfn (hlist.eq_of_joined hmem he hj ▸ hn)
    simp only [WaitOrder, hn, line_setLine_self, line_setLine_of_ne _ _ hfn] at hnot
    rcases cls_normal_or_urgent (s.line f.line).cls with hcf | hcf
    · simp [hcf] at hnot
    · exact ⟨hcf, by simp [hcf] at hnot; omega⟩
  · obtain ⟨-, hfn⟩ := hother f (hl ▸ List.mem_append_right before hf)
    rcases haf f hf with ⟨-, h⟩ | ⟨-, h⟩
    · exact .inl (by simpa [hfn] using h)
    · exact .inr h

/-- With no sender FREE a line that joins waits at the tail of its class (R126, R127). -/
theorem joinsWithKeys_noneFree {n : LineNo} {s u : State} (hpool : PoolLaws s) (hwant : (u.line n).Wants)
    (ho : OtherLinesSame n s u) (hp : u.pool = s.pool) (hn : ∀ e ∈ s.pool.waitList, e.line ≠ n)
    (hfree : ∀ k, (s.sender k).state ≠ .free) : JoinsWithKeys n s (joinTest n u) := by
  have hs : ∀ k, u.sender k = s.sender k := fun k => by simp [State.sender, hp]
  have hsame : ∀ f ∈ s.pool.waitList, u.line f.line = s.line f.line := fun f hf => ho _ (hn f hf)
  obtain ⟨-, hlist⟩ := (poolLaws_iff s).1 hpool
  have hulist : ListOk u.line u.pool.waitList u.pool.joins := hp ▸ hlist.sublist (List.Sublist.refl _)
    fun f hf => by rw [hsame f hf]; exact ⟨hlist.line_wants hf, rfl⟩
  obtain ⟨hd, hstore, hnone⟩ := hwant
  rw [joinTest_waits ⟨hd, hstore, hnone⟩ (by rwa [hp]) fun k => by rw [hs]; exact hfree k]
  refine fun _ _ => ⟨ho, fun h => absurd h hstore, fun _ k hk => absurd hk (hfree k), fun _ _ => ⟨hnone, hs, ?_⟩⟩
  obtain ⟨before, after, hj, hl, hb, haf⟩ := joinWait_place (n := n) hulist
  rw [hp] at hj hl
  refine ⟨before, after, hj, hl, fun f hf => ?_, fun f hf => ?_⟩
  · rw [← hsame f (hl ▸ List.mem_append_left after hf)]
    exact hb f hf
  · rw [← hsame f (hl ▸ List.mem_append_right before hf)]
    exact haf f hf

/-- With a sender FREE and so no line waiting, a line that joins is granted the lowest-numbered one (R130, R131). -/
theorem joinsWithKeys_free {n : LineNo} {s u : State} (hwant : (u.line n).Wants) (ho : OtherLinesSame n s u)
    (hp : u.pool = s.pool) (hempty : s.pool.waitList = []) (hfree : ¬ ∀ k, (s.sender k).state ≠ .free) :
    JoinsWithKeys n s (joinTest n u) := by
  have hs : ∀ k, u.sender k = s.sender k := fun k => by simp [State.sender, hp]
  have hgrant := fun k (hk : freeSender? u = some k) => joinTest_granted hwant (hp ▸ hempty) hk
  refine fun _ _ => ⟨?_, fun h => ?_, fun _ k hk hlow => ?_, fun _ h => absurd h hfree⟩
  · cases hk : freeSender? u with
    | none =>
      have hall := List.find?_eq_none.1
        (show List.find? (fun j => (u.sender j).state == .free) allSenders = none from hk)
      exact absurd (fun k => by simpa [hs] using hall k (by simp [allSenders])) hfree
    | some k =>
      obtain ⟨-, -, -, hother⟩ := hgrant k hk
      exact ho.trans hother
  · rw [joinTest_store] at h
    exact absurd h hwant.2.1
  · obtain ⟨h1, h2, h3, -⟩ := hgrant k (freeSender?_lowest (by rw [hs]; exact hk) fun j hj => by
      rw [hs]
      exact hlow j hj)
    exact ⟨h1, h2, fun j hj => by rw [h3 j hj, hs]⟩

/-- The joining test of a line that neither waits nor holds a sender. -/
theorem joinsWithKeys_joinTest {n : LineNo} {s u : State} (hpool : PoolLaws s) (harb : ArbiterLaw s)
    (hd : (u.line n).main = .collecting ∨ (u.line n).main = .through)
    (ha : (u.line n).attached = (s.line n).attached) (ho : OtherLinesSame n s u)
    (habs : (∀ e ∈ s.pool.waitList, e.line ≠ n) → u.pool = s.pool) : JoinsWithKeys n s (joinTest n u) := by
  intro hn hnone
  have hp := habs hn
  by_cases hstore : (u.line n).store = []
  · rw [joinTest_empty hstore]
    exact ⟨ho, fun _ => ⟨hp, ha.trans hnone⟩, fun h => absurd hstore h, fun h => absurd hstore h⟩
  · have hwant : (u.line n).Wants := ⟨hd, hstore, ha.trans hnone⟩
    by_cases hfree : ∀ k, (s.sender k).state ≠ .free
    · exact joinsWithKeys_noneFree hpool hwant ho hp hn hfree hn hnone
    · exact joinsWithKeys_free hwant ho hp (harb.resolve_left hfree) hfree hn hnone

/-- An event that ends in the joining test of its line: what becomes of the line's place in the pool (R127, R137). -/
theorem poolFollows_joinTest {n : LineNo} {s u : State} (hd : (u.line n).main = .collecting ∨ (u.line n).main = .through)
    (ha : (u.line n).attached = (s.line n).attached) (ho : OtherLinesSame n s u)
    (hgo : PoolLaws s → GoesOnWaiting n s u) (habs : (∀ e ∈ s.pool.waitList, e.line ≠ n) → u.pool = s.pool) :
    PoolFollows n s (joinTest n u) := by
  intro hpool harb
  refine ⟨fun k hk => ?_, fun e he hn => ?_, joinsWithKeys_joinTest hpool harb hd ha ho habs⟩
  · have hu : (u.line n).attached = some k := ha.trans hk
    rw [joinTest_attached hu]
    exact ⟨habs (hpool.absent hk), hu, ho⟩
  · obtain ⟨h1, h2, h3, h4⟩ := hgo hpool e he hn
    have hw : u.waiting n = true := waiting_iff.2 (by
      by_cases hc : (u.line n).cls = (s.line n).cls
      · exact ⟨e, by rw [h3 hc]; exact he, hn⟩
      · obtain ⟨before, after, hp, -⟩ := h4 hc
        exact ⟨e, by simp [hp], hn⟩)
    rw [joinTest_waiting hw]
    exact ⟨h1, h2, h3, h4⟩

end Sys2Proof.Machine
end

section
/-! SUPPORT. A completed number, with its class raise: the line, its place in the pool, its records (R103 to R114). With it
END_NUMBER and RESUME (O48). -/

namespace Sys2Proof.Machine

/-! ### The class raise of an evaluation (R105, R129) -/

theorem raiseClass_cases (n : LineNo) (ev : Evaluation) (s : State) : raiseClass n ev s = s
    ∨ (s.line n).cls = .normal ∧ raiseClass n ev s = requeue n (s.setLine n { s.line n with cls := .urgent }) := by
  unfold raiseClass
  split
  · split
    · rename_i h
      exact .inr ⟨h.2, rfl⟩
    · exact .inl rfl
  · exact .inl rfl

theorem raiseClass_raised (n : LineNo) (ev : Evaluation) (s : State) :
    (raiseClass n ev s).line n = { s.line n with cls := raisedClass ev (s.line n) } := by
  rw [raiseClass_line]
  cases hs : ev.selected with
  | none => simp [raisedClass, hs]
  | some x => simp [raisedClass, hs]

theorem raiseClass_others (n : LineNo) (ev : Evaluation) (s : State) : OtherLinesSame n s (raiseClass n ev s) := by
  rcases raiseClass_cases n ev s with h | ⟨-, h⟩ <;> rw [h]
  · exact fun _ _ => rfl
  · exact fun m hm => by rw [line_requeue, line_setLine_of_ne _ _ hm]

theorem raiseClass_pool_absent {n : LineNo} (ev : Evaluation) {s : State} (h : ∀ e ∈ s.pool.waitList, e.line ≠ n) :
    (raiseClass n ev s).pool = s.pool := by
  rcases raiseClass_cases n ev s with hr | ⟨-, hr⟩ <;> rw [hr]
  rw [requeue_absent (s := s.setLine n { s.line n with cls := .urgent }) h]
  rfl

theorem goesOnWaiting_raiseClass {n : LineNo} {ev : Evaluation} {s u : State} (hpool : PoolLaws s)
    (hp : u.pool = (raiseClass n ev s).pool) (ho : OtherLinesSame n s u)
    (ha : (u.line n).attached = (s.line n).attached) (hc : (u.line n).cls = ((raiseClass n ev s).line n).cls) :
    GoesOnWaiting n s u := by
  rcases raiseClass_cases n ev s with h | ⟨hn, h⟩ <;> rw [h] at hp hc
  · exact goesOnWaiting_same hpool hp ho ha hc
  · exact goesOnWaiting_raised hpool hp ho ha (by simp [hc, hn])

/-- A requeue changes nothing of the list but the place of its line's entry. -/
theorem leaveWait_requeue (n : LineNo) (s : State) : (leaveWait n (requeue n s)).pool = (leaveWait n s).pool := by
  unfold requeue
  split
  · rename_i e he
    have hen : e.line = n := by simpa using List.find?_some he
    obtain ⟨before, after, hi, hl, -⟩ := insertWait_place s e (s.pool.waitList.filter fun f => f.line != n)
    have hf : (before ++ e :: after).filter (fun f => f.line != n) = s.pool.waitList.filter fun f => f.line != n := by
      rw [List.filter_append, List.filter_cons_of_neg (by simp [hen]), ← List.filter_append, hl, List.filter_filter]
      simp
    simp [leaveWait, hi, hf]
  · rfl

theorem leaveWait_raiseClass (n : LineNo) (ev : Evaluation) (s : State) :
    (leaveWait n (raiseClass n ev s)).pool = (leaveWait n s).pool := by
  rcases raiseClass_cases n ev s with h | ⟨-, h⟩ <;> rw [h]
  exact leaveWait_requeue n _

/-! ### A completion in the pool (R114, R128) -/

/-- A completion whose set is trapped takes its line out of the wait list. -/
theorem completeNumber_trapped {n : LineNo} {p : Profile} {o : NumberOutcome} {ev : Evaluation} (d : DevTime) {s : State}
    (h : (s.line n).traps (completionSet o (offerDrops (completionKeys p ev (s.line n).digits) (s.line n).store)) = true) :
    LeavesTheList n s (completeNumber n p o ev d s) := by
  unfold completeNumber
  extract_lets l ks set s1 s2 s3
  have hp3 : s3.pool = s.pool := by simp [s3, s2, s1, offerTo]
  rw [if_pos (show l.traps set = true from h)]
  obtain ⟨-, hl, hp⟩ := suspendLine_spec n set .through .collecting d s3
  have hj : joinTest n (suspendLine n set .through .collecting d s3) = suspendLine n set .through .collecting d s3 := by
    simp [joinTest, mayJoin, hl, Line.suspend]
  rw [hj]
  exact hp.trans (by simp [leaveWait, hp3])

/-- A completion whose set is not trapped leaves the pool to the joining test of its line, now in THROUGH. -/
theorem completeNumber_untrapped {n : LineNo} {p : Profile} {o : NumberOutcome} {ev : Evaluation} (d : DevTime) {s : State}
    (h : (s.line n).traps (completionSet o (offerDrops (completionKeys p ev (s.line n).digits) (s.line n).store)) = false) :
    ∃ u, completeNumber n p o ev d s = joinTest n u ∧ u.pool = s.pool ∧ OtherLinesSame n s u
      ∧ (u.line n).main = .through ∧ (u.line n).attached = (s.line n).attached ∧ (u.line n).cls = (s.line n).cls := by
  unfold completeNumber
  extract_lets l ks set s1 s2 s3
  rw [if_neg (show ¬ l.traps set = true by simpa using h)]
  refine ⟨s3, rfl, ?_, fun m hm => ?_, ?_, ?_, ?_⟩
  · simp [s3, s2, s1, offerTo]
  · simp [s3, s2, s1, offerTo, hm]
  all_goals simp [s3, s2, s1, offerTo, Line.applySet, Line.enterThrough]

/-! ### A completion in the words of the rules (R91, R111 to R114) -/

theorem completionKeys_eq (p : Profile) (ev : Evaluation) (l : Line) :
    completionKeys p ev l.digits = numberKeys p ev l := by
  have he : endKeys p ev = if (ev.selected.map (·.2.endKey)) = some true then [⟨p.endKey, .endKey⟩] else [] := by
    unfold endKeys
    cases ev.selected with
    | none => rfl
    | some x => simp
  unfold completionKeys numberKeys
  rw [he]
  cases p.sendingMode <;> rfl

theorem completionSet_eq (p : Profile) (o : NumberOutcome) (ev : Evaluation) (l : Line) :
    completionSet o (offerDrops (completionKeys p ev l.digits) l.store) = numberSet p o ev l := by
  simp [completionSet, numberSet, completionKeys_eq, offerDrops, Cond.when, Cond.unmatched, Cond.callFull, Cond.storeFull]

theorem numberSet_cls (p : Profile) (o : NumberOutcome) (ev : Evaluation) (l : Line) (c : LineClass) :
    numberSet p o ev { l with cls := c } = numberSet p o ev l := rfl

/-- The line record of a completion after its class raise. -/
theorem completedLine_raised {p : Profile} {l : Line} (o : NumberOutcome) (ev : Evaluation) (hp : l.adopted = some p) :
    completedLine p o ev { l with cls := raisedClass ev l } = numberLine p o ev l := by
  have hset := completionSet_eq p o ev l
  have hkeys := completionKeys_eq p ev l
  rw [hkeys] at hset
  unfold completedLine numberLine
  simp only [hkeys, hset, offer]
  by_cases h : numberSet p o ev l &&& p.trapMask = 0
  · rw [if_pos h, if_neg (mt (traps_iff (l := { l with cls := raisedClass ev l }) hp).1 (not_not.2 h))]
  · rw [if_neg h, if_pos ((traps_iff (l := { l with cls := raisedClass ev l }) hp).2 h)]
    rfl

theorem completionRecords_raised {n : LineNo} {p : Profile} {s u : State} (o : NumberOutcome) (ev : Evaluation) (d : DevTime)
    (hp : (s.line n).adopted = some p) (hu : u.line n = { s.line n with cls := raisedClass ev (s.line n) }) :
    completionRecords n p o ev d u = numberRecords n p o ev d (s.line n) := by
  have hset : completionSet o (offerDrops (completionKeys p ev (u.line n).digits) (u.line n).store)
      = numberSet p o ev (s.line n) := by rw [completionSet_eq, hu, numberSet_cls]
  have htrap : (u.line n).trapped (numberSet p o ev (s.line n)) = numberSet p o ev (s.line n) &&& p.trapMask := by
    simp [hu, Line.trapped, Line.trapMask, hp]
  have hdigits : (u.line n).digits = (s.line n).digits := by rw [hu]
  have hcls : (u.line n).cls = raisedClass ev (s.line n) := by rw [hu]
  rw [hdigits] at hset
  simp [completionRecords, numberRecords, hset, Line.traps, htrap, hdigits, hcls, lineRecord]

/-- A class raise and a completion: the line, its place in the pool, and the records. -/
theorem completion_spec {n : LineNo} {p : Profile} {s : State} (o : NumberOutcome) (ev : Evaluation) (d : DevTime)
    (hp : (s.line n).adopted = some p) :
    SameButSender (numberLine p o ev (s.line n)) ((completeNumber n p o ev d (raiseClass n ev s)).line n)
      ∧ (if numberSet p o ev (s.line n) &&& p.trapMask = 0
          then PoolFollows n s (completeNumber n p o ev d (raiseClass n ev s))
          else LeavesTheList n s (completeNumber n p o ev d (raiseClass n ev s)))
      ∧ Recorded (numberRecords n p o ev d (s.line n)) s (completeNumber n p o ev d (raiseClass n ev s)) := by
  have hraise := raiseClass_raised n ev s
  obtain ⟨-, hr0⟩ := raiseClass_records n ev s
  have ho0 := raiseClass_others n ev s
  obtain ⟨⟨-, hr⟩, hl⟩ := completeNumber_spec n p o ev d (raiseClass n ev s)
  have htraps : ((raiseClass n ev s).line n).traps (completionSet o (offerDrops
      (completionKeys p ev ((raiseClass n ev s).line n).digits) ((raiseClass n ev s).line n).store)) = true
        ↔ ¬ (numberSet p o ev (s.line n) &&& p.trapMask = 0) := by
    rw [completionSet_eq, hraise, numberSet_cls]
    exact traps_iff hp
  refine ⟨?_, ?_, ?_⟩
  · rw [hraise, completedLine_raised o ev hp] at hl
    exact hl
  · split
    · rename_i h
      obtain ⟨u, he, hup, huo, hum, hua, huc⟩ :=
        completeNumber_untrapped d (Bool.eq_false_iff.2 (mt htraps.1 (not_not.2 h)))
      have hua' : (u.line n).attached = (s.line n).attached := by rw [hua, hraise]
      rw [he]
      exact poolFollows_joinTest (.inr hum) hua' (ho0.trans huo)
        (fun hpool => goesOnWaiting_raiseClass hpool hup (ho0.trans huo) hua' huc)
        fun hn => hup.trans (raiseClass_pool_absent ev hn)
    · rename_i h
      have hleave := completeNumber_trapped d (htraps.2 h)
      exact hleave.trans (leaveWait_raiseClass n ev s)
  · have hall := hr0.trans hr
    rw [completionRecords_raised o ev d hp hraise] at hall
    exact hall

/-! ### END_NUMBER and RESUME (R29, R98, R110, R174) -/

/-- The acknowledgement leaves what became of the line's place in the pool. -/
theorem PoolFollows.acknowledged {n : LineNo} {s : State} {r : State × RequestOutcome} (e : Byte)
    (h : PoolFollows n s r.1) : PoolFollows n s (acknowledge n e r) := by
  obtain ⟨hl, ho, hp, -, -, hc⟩ := acknowledge_spec n e r
  have hs : ∀ k, (acknowledge n e r).sender k = r.1.sender k := fun k => by simp [State.sender, hp]
  have hother : OtherLinesSame n s (acknowledge n e r) ↔ OtherLinesSame n s r.1 :=
    ⟨fun h m hm => (ho m hm).symm.trans (h m hm), fun h => h.trans ho⟩
  simpa only [PoolFollows, GoesOnWaiting, JoinsWithKeys, Granted, hl, hp, hs, hc, hother] using h

/-- The line's return from SUSPENDED, in the pool: it did not wait, so it joins when it has keys (R29, R127). -/
theorem resumed_poolFollows {n : LineNo} {s : State} {t : ResumeTarget} (hm : (s.line n).main = .suspended) :
    PoolFollows n s (joinTest n (s.setLine n ((s.line n).resumeTo t))) := by
  have hline : ((s.line n).resumeTo t).main = .collecting ∨ ((s.line n).resumeTo t).main = .through := by
    unfold Line.resumeTo
    cases t with
    | collecting =>
      simp only
      split <;> exact .inl rfl
    | through => exact .inr rfl
  have hatt : ((s.line n).resumeTo t).attached = (s.line n).attached := by
    unfold Line.resumeTo
    cases t with
    | collecting =>
      simp only
      split <;> rfl
    | through => rfl
  have ho : OtherLinesSame n s (s.setLine n ((s.line n).resumeTo t)) := fun m hm => line_setLine_of_ne _ _ hm
  refine poolFollows_joinTest (by simpa using hline) (by simpa using hatt) ho (fun hpool e he hn => ?_) fun _ => rfl
  have hwant := ((poolLaws_iff s).1 hpool).2.line_wants he
  have := hwant.1
  simp [hn, hm] at this

/-- A return to COLLECTING starts the completion timer when the line holds call digits (R98). -/
theorem resumeTo_collecting {p : Profile} {l : Line} (hp : l.adopted = some p) : l.resumeTo .collecting = { l with
    main := .collecting, resumeTarget := none
    completionTimer := if l.digits = [] then l.completionTimer else if p.tComplete = 0 then none else some 0 } := by
  unfold Line.resumeTo
  by_cases hd : l.digits = []
  · simp [hd]
  · simp [hd, Line.restartTimer, hp]

/-- RESUME of a suspended line: its record but for a grant, its place in the pool, no record. -/
theorem resume_acknowledged {n : LineNo} {s : State} {t : ResumeTarget} (e : Byte) (hm : (s.line n).main = .suspended)
    (ht : (s.line n).resumeTarget = some t) :
    SameButSender { (s.line n).resumeTo t with requestEdition := some e, requestOutcome := .done }
        ((acknowledge n e (doResume n s)).line n)
      ∧ PoolFollows n s (acknowledge n e (doResume n s)) ∧ Recorded [] s (acknowledge n e (doResume n s)) := by
  have hd : doResume n s = (joinTest n (s.setLine n ((s.line n).resumeTo t)), .done) := by simp [doResume, hm, ht]
  rw [hd]
  obtain ⟨hl, -, -, hj, ha, -⟩ := acknowledge_spec n e (joinTest n (s.setLine n ((s.line n).resumeTo t)), .done)
  have hev := joinTest_event n (s.setLine n ((s.line n).resumeTo t))
  refine ⟨?_, (resumed_poolFollows hm).acknowledged e, ?_⟩
  · have hsame := hev.2.1 n
    rw [line_setLine_self] at hsame
    rw [hl, hsame]
    rfl
  · exact hev.recorded.congr (s' := s) ⟨rfl, rfl⟩ ⟨hj, ha⟩

/-- Settles O48: END_NUMBER by the completion it forces, RESUME by its target. -/
theorem endNumberAndResumeRequests : Obligations.EndNumberAndResumeRequests := by
  constructor
  · intro n e s hw hnew l answered
    refine ⟨_, whenDue_true (working_iff.2 hw) _ _, fun hno => ?_, fun p hm hdig hp => ?_⟩
    all_goals rw [takeRequest_new hnew]
    · have hd : doEndNumber n s.now s = (s, .wrongState) := by
        unfold doEndNumber
        simp only
        split
        · rw [if_neg hno]
        · rfl
      rw [hd]
      obtain ⟨hl, ho, hpool, hj, ha, -⟩ := acknowledge_spec n e (s, .wrongState)
      exact ⟨hl, ho, hpool, (Recorded.refl s).congr ⟨rfl, rfl⟩ ⟨hj, ha⟩⟩
    · have hd : doEndNumber n s.now s = (completeNumber n p .forced (evaluate s.plan.table l.digits) s.now
          (raiseClass n (evaluate s.plan.table l.digits) s), .done) := by
        simp [doEndNumber, show (s.line n).adopted = some p from hp, show (s.line n).main = .collecting from hm,
          show (s.line n).digits ≠ [] from hdig, l]
      rw [hd]
      obtain ⟨hsame, hpool, hrec⟩ := completion_spec .forced (evaluate s.plan.table l.digits) s.now hp
      obtain ⟨hl, -, hp', hj, ha, -⟩ := acknowledge_spec n e (completeNumber n p .forced (evaluate s.plan.table l.digits)
        s.now (raiseClass n (evaluate s.plan.table l.digits) s), .done)
      refine ⟨?_, ?_, hrec.congr ⟨rfl, rfl⟩ ⟨hj, ha⟩⟩
      · rw [hl, hsame]
        rfl
      · split at hpool
        · rename_i h
          rw [if_pos h]
          exact hpool.acknowledged e
        · rename_i h
          rw [if_neg h]
          exact hp'.trans hpool
  · intro n e s hw hnew l answered
    refine ⟨_, whenDue_true (working_iff.2 hw) _ _, ?_⟩
    rw [takeRequest_new hnew]
    by_cases hm : l.main = .suspended
    · cases ht : l.resumeTarget with
      | none =>
        have hd : doResume n s = (s, .wrongState) := by
          simp [doResume, show (s.line n).main = .suspended from hm, show (s.line n).resumeTarget = none from ht]
        obtain ⟨-, -, -, hj, ha, -⟩ := acknowledge_spec n e (s, .wrongState)
        rw [hd]
        exact ⟨(Recorded.refl s).congr ⟨rfl, rfl⟩ ⟨hj, ha⟩, fun h => absurd hm h, fun _ h => by simp at h,
          fun _ _ h => by simp at h⟩
      | some target =>
        obtain ⟨hl, hpool, hr⟩ := resume_acknowledged e hm ht
        refine ⟨hr, fun h => absurd hm h, fun _ h => ?_, fun p _ h hp => ?_⟩
        · cases h
          exact ⟨hl, hpool⟩
        · cases h
          rw [resumeTo_collecting (l := s.line n) hp] at hl
          exact ⟨hl, hpool⟩
    · have hd : doResume n s = (s, .wrongState) := if_neg hm
      obtain ⟨hl, ho, hp, hj, ha, -⟩ := acknowledge_spec n e (s, .wrongState)
      rw [hd]
      exact ⟨(Recorded.refl s).congr ⟨rfl, rfl⟩ ⟨hj, ha⟩, fun _ => ⟨hl, ho, hp⟩, fun h => absurd h hm,
        fun _ h => absurd h hm⟩

end Sys2Proof.Machine
end

section
/-! SUPPORT. The events of one line in a scan frame: what each makes of its record, of the pool and of the records, whatever
sender the line has been granted earlier in the frame (R20, R21, R42 to R53, R62 to R64). -/

namespace Sys2Proof.Machine

/-! ### What an event of a line settles -/

/-- From any state where the record of line n is l but for its sender, event f leaves record L but for its sender, hands over
records rs, and relates the states by P. -/
def Settles (n : LineNo) (l L : Line) (rs : List Record) (P : State → State → Prop) (f : State → State) : Prop :=
  ∀ v, SameButSender l (v.line n) → SameButSender L ((f v).line n) ∧ P v (f v) ∧ Recorded rs v (f v)

/-- The state in which the transition event of line n is taken: the frame finished, the line's sample conditioned. -/
abbrev State.sampled (n : LineNo) (p : Profile) (code : LoopCode) (s : State) : State :=
  ({ s with scan := s.scan.finish s.now } : State).setLine n ((s.line n).conditioned p code)

/-- State t has taken a frame that began in state s, as line n sees it (R1). -/
def FrameTaken (frame : BitVec 192) (n : LineNo) (s t : State) : Prop :=
  (∃ u, SameButSender (s.line n) (u.line n)
      ∧ SameButSender ((sampleLine (frameCode frame n) n s.scan.strobedAt u).line n) (t.line n))
    ∧ (OnlyLine n s → t = sampleLine (frameCode frame n) n s.scan.strobedAt { s with scan := s.scan.finish s.now })

theorem frame_taken (frame : BitVec 192) (n : LineNo) {s : State} (hw : s.part.phase = .working)
    (hshift : s.scan.shifting = true) : ∃ t, exec (.scanFrameComplete frame) s = .next t ∧ FrameTaken frame n s t := by
  obtain ⟨t, hexec, -, -, hline⟩ := scanFrameComplete_spec frame hw hshift
  obtain ⟨hu, honly⟩ := hline n
  rw [← frameCode_eq] at hu honly
  exact ⟨t, hexec, hu, honly⟩

/-- A grant changes neither the transition of a sample nor the set it raises. -/
theorem SameButSender.sameSample {l l' : Line} (h : SameButSender l l') (p : Profile) (code : LoopCode) :
    (conditionLine p code l').2 = (conditionLine p code l).2 ∧ marginalSet code l' = marginalSet code l := by
  rw [h]
  exact ⟨rfl, rfl⟩

section Frame

variable {frame : BitVec 192} {n : LineNo} {p : Profile} {s t : State} (h : FrameTaken frame n s t)
  (hc : (s.line n).main.conditioning = true) (hp : (s.line n).adopted = some p) (hs : (s.line n).skipSamples = 0)
include h hc hp hs

/-- What the event of a line's sample settles, the frame settles. -/
theorem FrameTaken.settles {L : Line} {rs : List Record} {P : State → State → Prop} {f : State → State}
    (hf : ∀ u, SameButSender (s.line n) (u.line n) → conditioningSample n p (frameCode frame n) s.scan.strobedAt u
      = f (u.setLine n ((u.line n).conditioned p (frameCode frame n))))
    (hset : Settles n ((s.line n).conditioned p (frameCode frame n)) L rs P f) :
    SameButSender L (t.line n) ∧ (OnlyLine n s → P (s.sampled n p (frameCode frame n)) t ∧ Recorded rs s t) := by
  obtain ⟨⟨u, hu, ht⟩, honly⟩ := h
  have hsample : ∀ u, SameButSender (s.line n) (u.line n) → sampleLine (frameCode frame n) n s.scan.strobedAt u
      = f (u.setLine n ((u.line n).conditioned p (frameCode frame n))) := fun u hu => by
    rw [← hf u hu]
    refine sampleLine_conditioning _ _ ?_ ?_ ?_ <;> rw [hu] <;> assumption
  have hcond : ∀ u : State, SameButSender (s.line n) (u.line n) →
      SameButSender ((s.line n).conditioned p (frameCode frame n))
        ((u.setLine n ((u.line n).conditioned p (frameCode frame n))).line n) := fun u hu => by
    rw [line_setLine_self, hu]
    rfl
  refine ⟨?_, fun ho => ?_⟩
  · rw [hsample u hu] at ht
    exact (hset _ (hcond u hu)).1.trans ht
  · obtain ⟨-, hP, hr⟩ := hset _ (hcond { s with scan := s.scan.finish s.now } (.refl _))
    rw [honly ho, hsample { s with scan := s.scan.finish s.now } (.refl _)]
    exact ⟨hP, hr.congr (s' := s) ⟨rfl, rfl⟩ ⟨rfl, rfl⟩⟩

theorem FrameTaken.makeStart {L : Line} {rs : List Record} {P : State → State → Prop}
    (ht : (conditionLine p (frameCode frame n) (s.line n)).2 = .makeStart)
    (hset : Settles n ((s.line n).conditioned p (frameCode frame n)) L rs P
      (makeStart n p (marginalSet (frameCode frame n) (s.line n)) s.scan.strobedAt)) :
    SameButSender L (t.line n) ∧ (OnlyLine n s → P (s.sampled n p (frameCode frame n)) t ∧ Recorded rs s t) := by
  refine h.settles hc hp hs (fun u hu => ?_) hset
  obtain ⟨htr, hmarg⟩ := hu.sameSample p (frameCode frame n)
  rw [conditioningSample_makeStart _ (htr.trans ht), hmarg]

theorem FrameTaken.breakStart {L : Line} {rs : List Record} {P : State → State → Prop}
    (ht : (conditionLine p (frameCode frame n) (s.line n)).2 = .breakStart)
    (hset : Settles n ((s.line n).conditioned p (frameCode frame n)) L rs P
      (breakStart n p (marginalSet (frameCode frame n) (s.line n)) s.scan.strobedAt)) :
    SameButSender L (t.line n) ∧ (OnlyLine n s → P (s.sampled n p (frameCode frame n)) t ∧ Recorded rs s t) := by
  refine h.settles hc hp hs (fun u hu => ?_) hset
  obtain ⟨htr, hmarg⟩ := hu.sameSample p (frameCode frame n)
  rw [conditioningSample_breakStart _ (htr.trans ht), hmarg]

end Frame

/-! ### The record the event starts from (R4 to R9) -/

/-- Inside a train a MARGINAL sample is remembered, and raised when it is the first (R9). -/
theorem conditioned_inTrain {code : LoopCode} {l : Line} (p : Profile) (hm : l.main = .collecting ∨ l.main = .through)
    (hs : l.sub ≠ .idle) :
    l.conditioned p code
        = { (conditionLine p code l).1 with marginalRaised := l.marginalRaised || decide (code = LoopCode.marginal) }
      ∧ marginalSet code l = if code = .marginal ∧ l.marginalRaised = false then 0x020 else 0 := by
  have hr : raisesMarginal code l = (decide (code = .marginal) && !l.marginalRaised) := by
    simp [raisesMarginal, hs, dialling_iff.2 hm]
  refine ⟨?_, ?_⟩
  · rw [Line.conditioned, hr]
    cases l.marginalRaised <;> simp
  · simp [marginalSet, hr, Cond.when, Cond.marginal]

/-- With no train a sample raises nothing. -/
theorem conditioned_noTrain {code : LoopCode} {l : Line} (p : Profile)
    (h : l.sub = .idle ∨ ¬ (l.main = .collecting ∨ l.main = .through)) :
    l.conditioned p code = (conditionLine p code l).1 ∧ marginalSet code l = 0 := by
  have hr : raisesMarginal code l = false := by
    rcases h with h | h
    · simp [raisesMarginal, h]
    · rw [← dialling_iff] at h
      simp [raisesMarginal, h]
  refine ⟨?_, by simp [marginalSet, hr, Cond.when]⟩
  rw [Line.conditioned, hr, Bool.or_false]
  rfl

/-! ### Events by the operation they end in -/

/-- An event that writes the record and nothing else. -/
theorem settled_setLine {n : LineNo} {L l : Line} (v : State) (h : SameButSender L l) :
    SameButSender L ((v.setLine n l).line n) ∧ (v.setLine n l).pool = v.pool ∧ Recorded [] v (v.setLine n l) :=
  ⟨by rwa [line_setLine_self], rfl, (setLine_records n v l).2⟩

/-- An event that writes the record and raises a set (R85 to R90, R128). -/
theorem settled_raiseSet {n : LineNo} {p : Profile} {L l : Line} (b : Bool) (set : CondSet) (d : DevTime) (v : State)
    (h : SameButSender L l) (hp : L.adopted = some p) :
    SameButSender (afterSet p b set L) ((raiseSet n b set d (v.setLine n l)).line n)
      ∧ ListAfterSet p set n v (raiseSet n b set d (v.setLine n l))
      ∧ Recorded (setRecords n d p set L.main) v (raiseSet n b set d (v.setLine n l)) := by
  have hmain : l.main = L.main ∧ l.adopted = L.adopted := by
    rw [h]
    exact ⟨rfl, rfl⟩
  have hp' : ((v.setLine n l).line n).adopted = some p := by rw [line_setLine_self, hmain.2, hp]
  obtain ⟨⟨-, hr⟩, hl⟩ := raiseSet_afterSet n b set d (v.setLine n l) hp'
  obtain ⟨-, -, hpool⟩ := raiseSet_spec n b set d (v.setLine n l)
  rw [line_setLine_self] at hl hr
  refine ⟨?_, ?_, ?_⟩
  · rw [hl]
    exact afterSet_sameButSender p b set h
  · unfold ListAfterSet LeavesTheList
    rw [hpool]
    by_cases h0 : set &&& p.trapMask = 0
    · rw [if_pos h0, if_neg (mt (traps_iff hp').1 (not_not.2 h0))]
      rfl
    · rw [if_neg h0, if_pos ((traps_iff hp').2 h0)]
      rfl
  · rw [hmain.1] at hr
    exact hr.congr (s' := v) ⟨rfl, rfl⟩ ⟨rfl, rfl⟩

/-! ### Seizure (R20, R21) -/

section Events

variable {n : LineNo} {p : Profile} {l : Line} (marg : CondSet) (d : DevTime)

theorem settles_seizure (hm : l.main = .onHook) (hg : p.guard ≠ 0) :
    Settles n l { l with main := .seizing, intervalTimer := 0 } [] (fun v t => t.pool = v.pool)
      (makeStart n p marg d) := by
  intro v hv
  have he : makeStart n p marg d v = v.setLine n { v.line n with main := .seizing, intervalTimer := 0 } := by
    have hm' : (v.line n).main = .onHook := by rw [hv]; exact hm
    simp [makeStart, seizeLine, hm', hg]
  rw [he]
  exact settled_setLine v (by rw [hv]; rfl)

theorem settles_seizureAtOnce (hm : l.main = .onHook) (hg : p.guard = 0) :
    Settles n l { trainIdle l with
        main := .collecting, intervalTimer := 0, digits := [], completionTimer := none, cls := .normal }
      [⟨some n, d, .seize⟩] (fun v t => t.pool = v.pool) (makeStart n p marg d) := by
  intro v hv
  have he : makeStart n p marg d v = handOver (lineRecord n d .seize) ((v.setLine n { v.line n with
      main := .seizing, intervalTimer := 0 }).setLine n
        ({ v.line n with main := .seizing, intervalTimer := 0 } : Line).seize) := by
    have hm' : (v.line n).main = .onHook := by rw [hv]; exact hm
    simp [makeStart, seizeLine, enterCollecting, hm', hg]
  rw [he]
  refine ⟨?_, by simp, ?_⟩
  · rw [line_handOver, line_setLine_self, hv]
    rfl
  · exact ((setLine_records n v _).2.trans (setLine_records n _ _).2).trans (handOver_recorded _ _)

theorem pendingAdopted_sameButSender {l l' : Line} (h : SameButSender l l') :
    SameButSender (pendingAdopted l) (pendingAdopted l') := by
  rw [h]
  unfold pendingAdopted
  simp only
  split
  · unfold Line.adopt
    simp only
    split <;> rfl
  · rfl

theorem settles_abandonedSeizure (hm : l.main = .seizing) :
    Settles n l (pendingAdopted { l with main := .onHook, sub := .idle, intervalTimer := 0 }) (pendingRecords n d l)
      (fun v t => t.pool = v.pool) (breakStart n p marg d) := by
  intro v hv
  have he : breakStart n p marg d v
      = adoptPending n d (v.setLine n { v.line n with main := .onHook, sub := .idle, intervalTimer := 0 }) := by
    have hm' : (v.line n).main = .seizing := by rw [hv]; exact hm
    simp [breakStart, abandonSeizure, hm']
  rw [he]
  obtain ⟨⟨-, hr⟩, hl, hpool, -⟩ := adoptPending_frame n d
    (v.setLine n { v.line n with main := .onHook, sub := .idle, intervalTimer := 0 })
  rw [line_setLine_self] at hl hr
  refine ⟨?_, hpool, ?_⟩
  · rw [hl]
    exact pendingAdopted_sameButSender (by rw [hv]; rfl)
  · have hrec : pendingRecords n d { v.line n with main := .onHook, sub := .idle, intervalTimer := 0 }
        = pendingRecords n d l := by
      rw [hv]
      rfl
    rw [hrec] at hr
    exact hr.congr (s' := v) ⟨rfl, rfl⟩ ⟨rfl, rfl⟩

/-! ### Which event a transition is (R28, R42 to R48) -/

section Dispatch

variable {v : State} (hv : SameButSender l (v.line n))
include hv

theorem makeStart_glitch (hc : l.main.inCall = true) (hr : l.reopened = false) (hb : l.intervalTimer < p.bMin) :
    makeStart n p marg d v = breakGlitch n marg d v := by
  obtain ⟨hm', hr', hi'⟩ : (v.line n).main = l.main ∧ (v.line n).reopened = l.reopened
      ∧ (v.line n).intervalTimer = l.intervalTimer := by rw [hv]; exact ⟨rfl, rfl, rfl⟩
  have hhook : l.main ≠ .onHook := by rintro h; simp [h, MainState.inCall] at hc
  simp [makeStart, isBreakGlitch, hm', hr', hi', hc, hr, hb, hhook]

theorem makeStart_suspended (hm : l.main = .suspended) (hb : p.bMin ≤ l.intervalTimer) :
    makeStart n p marg d v = endBreakSuspended n p l.intervalTimer d v := by
  obtain ⟨hm', hi'⟩ : (v.line n).main = l.main ∧ (v.line n).intervalTimer = l.intervalTimer := by
    rw [hv]; exact ⟨rfl, rfl⟩
  simp [makeStart, isBreakGlitch, hm', hi', hm, hb, MainState.inCall]

variable (hd : l.main = .collecting ∨ l.main = .through)
include hd

theorem makeStart_idle (hs : l.sub = .idle) (hb : p.bMin ≤ l.intervalTimer) :
    makeStart n p marg d v = endBreakIdle n p l.intervalTimer d v := by
  obtain ⟨hm', hs', hi'⟩ : (v.line n).main = l.main ∧ (v.line n).sub = l.sub
      ∧ (v.line n).intervalTimer = l.intervalTimer := by rw [hv]; exact ⟨rfl, rfl, rfl⟩
  rcases hd with hd | hd <;> simp [makeStart, isBreakGlitch, hm', hs', hi', hd, hs, hb, MainState.inCall]

theorem makeStart_brk (hs : l.sub = .brk) (hb : p.bMin ≤ l.intervalTimer ∨ l.reopened = true) :
    makeStart n p marg d v = endBreakInTrain n p l.intervalTimer marg d v := by
  obtain ⟨hm', hs', hr', hi'⟩ : (v.line n).main = l.main ∧ (v.line n).sub = l.sub ∧ (v.line n).reopened = l.reopened
      ∧ (v.line n).intervalTimer = l.intervalTimer := by rw [hv]; exact ⟨rfl, rfl, rfl, rfl⟩
  have hg : isBreakGlitch p (v.line n) = false := by
    rcases hb with hb | hb
    · simp [isBreakGlitch, hi', hb]
    · simp [isBreakGlitch, hr', hb]
  rcases hd with hd | hd <;> simp [makeStart, hg, hm', hs', hi', hd, hs, MainState.inCall]

end Dispatch

/-! ### Breaks and makes that begin or end with no train (R28, R42, R45, R49) -/

theorem settles_trainStart (hd : l.main = .collecting ∨ l.main = .through) (hs : l.sub = .idle)
    (hb : p.bMin ≤ l.intervalTimer) (hb' : l.intervalTimer ≤ p.bMax) :
    Settles n l { l with
        pulses := 1, pulseBreak := l.intervalTimer, causes := 0, marginalRaised := false, reopened := false, sub := .make
        threshold := some (thresholdOf p l.estimate), intervalTimer := 0 }
      [] (fun v t => t.pool = v.pool) (makeStart n p marg d) := by
  intro v hv
  rw [makeStart_idle marg d hv hd hs hb, endBreakIdle, if_pos hb']
  exact settled_setLine v (by rw [hv]; rfl)

theorem settles_absorbedBreak (hc : l.main.inCall = true) (hs : l.sub = .idle) (hr : l.reopened = false)
    (hb : l.intervalTimer < p.bMin) :
    Settles n l { l with intervalTimer := min (l.heldMake + l.intervalTimer) 65535 } [] (fun v t => t.pool = v.pool)
      (makeStart n p marg d) := by
  intro v hv
  have hs' : (v.line n).sub = .idle := by rw [hv]; exact hs
  have he : makeStart n p marg d v
      = v.setLine n { v.line n with intervalTimer := min ((v.line n).heldMake + (v.line n).intervalTimer) 65535 } := by
    rw [makeStart_glitch marg d hv hc hr hb]
    simp [breakGlitch, hs']
  rw [he]
  exact settled_setLine v (by rw [hv]; rfl)

theorem settles_candidateBreak (hc : l.main.inCall = true) (hs : l.sub = .idle) :
    Settles n l { l with heldMake := l.intervalTimer, intervalTimer := 0 } [] (fun v t => t.pool = v.pool)
      (breakStart n p marg d) := by
  intro v hv
  obtain ⟨hm', hs'⟩ : (v.line n).main = l.main ∧ (v.line n).sub = l.sub := by rw [hv]; exact ⟨rfl, rfl⟩
  have hseize : l.main ≠ .seizing := by rintro h; simp [h, MainState.inCall] at hc
  have he : breakStart n p marg d v = candidateBreak n v := by simp [breakStart, hm', hs', hc, hs, hseize]
  rw [he]
  exact settled_setLine v (by rw [hv]; rfl)

theorem settles_suspendedBreak (hm : l.main = .suspended) (hb : p.bMin ≤ l.intervalTimer) :
    Settles n l { l with intervalTimer := 0 }
      (if p.bMax < l.intervalTimer ∧ l.intervalTimer ≤ p.fMax then [⟨some n, d, .flash .ignored⟩] else [])
      (fun v t => t.pool = v.pool) (makeStart n p marg d) := by
  intro v hv
  have hflash : isFlashLength p l.intervalTimer = true ↔ p.bMax < l.intervalTimer ∧ l.intervalTimer ≤ p.fMax := by
    simp only [isFlashLength, decide_eq_true_eq]
    omega
  rw [makeStart_suspended marg d hv hm hb, endBreakSuspended]
  by_cases hf : p.bMax < l.intervalTimer ∧ l.intervalTimer ≤ p.fMax
  · rw [if_pos (hflash.2 hf), if_pos hf]
    refine ⟨?_, by simp [suspendedFlash], ?_⟩
    · rw [suspendedFlash, line_handOver, line_setLine_self, hv]
      rfl
    · exact (setLine_records n v _).2.trans (handOver_recorded (lineRecord n d (.flash .ignored)) _)
  · rw [if_neg (mt hflash.1 hf), if_neg hf]
    exact settled_setLine v (by rw [hv]; rfl)

theorem settles_longBreakAlone (hp : l.adopted = some p) (hd : l.main = .collecting ∨ l.main = .through)
    (hs : l.sub = .idle) (hb : p.bMin ≤ l.intervalTimer) (hb' : p.bMax < l.intervalTimer)
    (hf : p.fMax = 0 ∨ p.fMax < l.intervalTimer) :
    Settles n l (afterSet p false 0x010 { l with intervalTimer := 0 }) (setRecords n d p 0x010 l.main)
      (ListAfterSet p 0x010 n) (makeStart n p marg d) := by
  intro v hv
  have hnot : ¬ isFlashLength p l.intervalTimer = true := by
    simp only [isFlashLength, decide_eq_true_eq]
    omega
  rw [makeStart_idle marg d hv hd hs hb, endBreakIdle, if_neg (by omega), if_neg hnot]
  exact settled_raiseSet (L := { l with intervalTimer := 0 }) false 0x010 d v (by rw [hv]; rfl) hp

/-! ### Breaks and makes inside a train (R43 to R45, R52, R53) -/

section Train

variable (hp : l.adopted = some p) (hd : l.main = .collecting ∨ l.main = .through)
include hp hd

theorem settles_breakGlitch (hs : l.sub = .brk) (hr : l.reopened = false) (hb : l.intervalTimer < p.bMin) :
    Settles n l
      (afterSet p true (0x001 ||| marg) { l with
        sub := .make, intervalTimer := min (l.heldMake + l.intervalTimer) 65535 })
      (setRecords n d p (0x001 ||| marg) l.main) (ListAfterSet p (0x001 ||| marg) n) (makeStart n p marg d) := by
  intro v hv
  have hs' : (v.line n).sub = .brk := by rw [hv]; exact hs
  rw [makeStart_glitch marg d hv (inCall_of_dialling hd) hr hb]
  simp only [breakGlitch, hs']
  exact settled_raiseSet (L := { l with sub := .make, intervalTimer := min (l.heldMake + l.intervalTimer) 65535 })
    true (0x001 ||| marg) d v (by rw [hv]; rfl) hp

theorem settles_longBreakInTrain (hs : l.sub = .brk) (hb : p.bMin ≤ l.intervalTimer) (hb' : p.bMax < l.intervalTimer) :
    Settles n l (afterSet p true (0x010 ||| marg) { trainIdle l with intervalTimer := 0 })
      (setRecords n d p (0x010 ||| marg) l.main) (ListAfterSet p (0x010 ||| marg) n) (makeStart n p marg d) := by
  intro v hv
  rw [makeStart_brk marg d hv hd hs (.inl hb), endBreakInTrain, if_pos hb']
  exact settled_raiseSet (L := { trainIdle l with intervalTimer := 0 }) true (0x010 ||| marg) d v (by rw [hv]; rfl) hp

theorem settles_reopenedBreak (hs : l.sub = .brk) (hr : l.reopened = true) (hb : l.intervalTimer ≤ p.bMax) :
    Settles n l
      (afterSet p true marg { l with
        sub := .make, pulseBreak := l.intervalTimer, reopened := false, threshold := some (thresholdOf p l.estimate)
        intervalTimer := 0 })
      (setRecords n d p marg l.main) (ListAfterSet p marg n) (makeStart n p marg d) := by
  intro v hv
  have hr' : (v.line n).reopened = true := by rw [hv]; exact hr
  rw [makeStart_brk marg d hv hd hs (.inr hr), endBreakInTrain, if_neg (by omega), if_pos hr']
  exact settled_raiseSet (L := { l with
    sub := .make, pulseBreak := l.intervalTimer, reopened := false, threshold := some (thresholdOf p l.estimate)
    intervalTimer := 0 }) true marg d v (by rw [hv]; rfl) hp

theorem settles_candidatePulseBreak (hs : l.sub = .make) (hb : p.mMin ≤ l.intervalTimer) :
    Settles n l (afterSet p true marg { l with sub := .brk, heldMake := l.intervalTimer, intervalTimer := 0 })
      (setRecords n d p marg l.main) (ListAfterSet p marg n) (breakStart n p marg d) := by
  intro v hv
  obtain ⟨hm', hs', hi'⟩ : (v.line n).main = l.main ∧ (v.line n).sub = l.sub
      ∧ (v.line n).intervalTimer = l.intervalTimer := by rw [hv]; exact ⟨rfl, rfl, rfl⟩
  have he : breakStart n p marg d v = candidatePulseBreak n marg d v := by
    rcases hd with hd | hd <;> simp [breakStart, hm', hs', hi', hd, hs, hb, MainState.inCall]
  rw [he]
  exact settled_raiseSet (L := { l with sub := .brk, heldMake := l.intervalTimer, intervalTimer := 0 })
    true marg d v (by rw [hv]; rfl) hp

theorem settles_makeGlitch (hs : l.sub = .make) (hb : l.intervalTimer < p.mMin) :
    Settles n l
      (afterSet p true (0x001 ||| marg) { l with
        sub := .brk, intervalTimer := min (l.pulseBreak + l.intervalTimer) 65535, reopened := true, threshold := none })
      (setRecords n d p (0x001 ||| marg) l.main) (ListAfterSet p (0x001 ||| marg) n) (breakStart n p marg d) := by
  intro v hv
  obtain ⟨hm', hs', hi'⟩ : (v.line n).main = l.main ∧ (v.line n).sub = l.sub
      ∧ (v.line n).intervalTimer = l.intervalTimer := by rw [hv]; exact ⟨rfl, rfl, rfl⟩
  have he : breakStart n p marg d v = makeGlitch n marg d v := by
    rcases hd with hd | hd <;> simp [breakStart, hm', hs', hi', hd, hs, hb, MainState.inCall]
  rw [he]
  exact settled_raiseSet (L := { l with
    sub := .brk, intervalTimer := min (l.pulseBreak + l.intervalTimer) 65535, reopened := true, threshold := none })
    true (0x001 ||| marg) d v (by rw [hv]; rfl) hp

end Train

end Events

end Sys2Proof.Machine
end

section
/-! SUPPORT. The starts of makes and breaks in a scan frame: seizures, trains and glitches (O17, O19). -/

namespace Sys2Proof.Machine

/-- Settles O17, by the main state in which the transition falls. -/
theorem makeStartSeizesOrStartsATrain : Obligations.MakeStartSeizesOrStartsATrain := by
  intro frame n p s hw hshift hp hskip l event b d
  obtain ⟨t, hexec, hframe⟩ := frame_taken frame n hw hshift
  have hquiet : l.sub = .idle ∨ ¬ (l.main = .collecting ∨ l.main = .through) →
      (s.line n).conditioned p (frameCode frame n) = l := fun h => (conditioned_noTrain (l := s.line n) p h).1
  refine ⟨t, hexec, fun ht hm hg => ?_, fun ht hm hg => ?_, fun ht hd hs hb hb' => ?_, fun ht hm => ?_⟩
  · have hcond := hquiet (.inr (by simp [hm]))
    obtain ⟨hl, hr⟩ := hframe.makeStart (by rw [show (s.line n).main = .onHook from hm]; rfl) hp hskip ht
      (by rw [hcond]; exact settles_seizure _ d hm hg)
    exact ⟨hl, fun ho => (hr ho).2⟩
  · have hcond := hquiet (.inr (by simp [hm]))
    obtain ⟨hl, hr⟩ := hframe.makeStart (by rw [show (s.line n).main = .onHook from hm]; rfl) hp hskip ht
      (by rw [hcond]; exact settles_seizureAtOnce _ d hm hg)
    exact ⟨hl, fun ho => (hr ho).2⟩
  · have hcond := hquiet (.inl hs)
    obtain ⟨hl, hr⟩ := hframe.makeStart (conditioning_of_inCall (inCall_of_dialling hd)) hp hskip ht
      (by rw [hcond]; exact settles_trainStart _ d hd hs hb hb')
    exact ⟨hl, fun ho => (hr ho).2⟩
  · have hcond := hquiet (.inr (by simp [hm]))
    obtain ⟨hl, hr⟩ := hframe.breakStart (by rw [show (s.line n).main = .seizing from hm]; rfl) hp hskip ht
      (by rw [hcond]; exact settles_abandonedSeizure _ d hm)
    exact ⟨hl, fun ho => (hr ho).2⟩

/-- Settles O19, by the transition, the sub-state and the length it ends. -/
theorem glitchesAreAbsorbed : Obligations.GlitchesAreAbsorbed := by
  intro frame n p s hw hshift hp hskip l event length dialling marg l1
  obtain ⟨t, hexec, hframe⟩ := frame_taken frame n hw hshift
  have hcond : dialling → (s.line n).main.conditioning = true := fun hd =>
    conditioning_of_inCall (inCall_of_dialling hd)
  have htrain : dialling → l.sub ≠ .idle →
      (s.line n).conditioned p (frameCode frame n) = l1 ∧ marginalSet (frameCode frame n) (s.line n) = marg :=
    fun hd hs => conditioned_inTrain p hd hs
  refine ⟨t, hexec, ⟨fun ht hd hs hr hb => ?_, fun ht hd hs hr hb => ?_, fun ht hd hs hb => ?_, fun ht hd hs hb => ?_⟩,
    fun hm hs hr => ?_⟩
  · obtain ⟨hl1, hmarg⟩ := htrain hd (by simp [hs])
    exact hframe.makeStart (hcond hd) hp hskip ht (by rw [hl1, hmarg]; exact settles_breakGlitch marg _ hp hd hs hr hb)
  · obtain ⟨hl1, hmarg⟩ := htrain hd (by simp [hs])
    exact hframe.makeStart (hcond hd) hp hskip ht (by rw [hl1, hmarg]; exact settles_reopenedBreak marg _ hp hd hs hr hb)
  · obtain ⟨hl1, hmarg⟩ := htrain hd (by simp [hs])
    exact hframe.breakStart (hcond hd) hp hskip ht (by rw [hl1, hmarg]; exact settles_candidatePulseBreak marg _ hp hd hs hb)
  · obtain ⟨hl1, hmarg⟩ := htrain hd (by simp [hs])
    exact hframe.breakStart (hcond hd) hp hskip ht (by rw [hl1, hmarg]; exact settles_makeGlitch marg _ hp hd hs hb)
  · have hin : (s.line n).main.inCall = true := by
      rcases hm with hm | hm
      · exact inCall_of_dialling hm
      · exact (inCall_iff _).2 (.inr (.inr hm))
    have hl : (s.line n).conditioned p (frameCode frame n) = l := (conditioned_noTrain (l := s.line n) p (.inl hs)).1
    have hmake : event = .makeStart → length < p.bMin → _ := fun ht hb =>
      hframe.makeStart (conditioning_of_inCall hin) hp hskip ht
        (by rw [hl]; exact settles_absorbedBreak _ _ hin hs hr hb)
    have hbreak : event = .breakStart → _ := fun ht =>
      hframe.breakStart (conditioning_of_inCall hin) hp hskip ht (by rw [hl]; exact settles_candidateBreak _ _ hin hs)
    refine ⟨fun ht hb => (hmake ht hb).1, fun ht => (hbreak ht).1, fun h ho => ?_⟩
    rcases h with ht | ⟨ht, hb⟩
    · exact (hbreak ht).2 ho
    · exact (hmake ht hb).2 ho

end Sys2Proof.Machine
end

section
/-! SUPPORT. Flashes in a scan frame (R26, R62, R63), and the breaks that end above Bmin or Bmax (O20). -/

namespace Sys2Proof.Machine

/-! ### An event that ends in the joining test of its line -/

/-- State t is a joining test of line n, in COLLECTING or THROUGH, after an event that left pool, class and sender. -/
def EndsInJoinTest (n : LineNo) (s t : State) : Prop :=
  ∃ u, t = joinTest n u ∧ u.pool = s.pool ∧ OtherLinesSame n s u
    ∧ ((u.line n).main = .collecting ∨ (u.line n).main = .through)
    ∧ (u.line n).attached = (s.line n).attached ∧ (u.line n).cls = (s.line n).cls

theorem EndsInJoinTest.poolFollows {n : LineNo} {s t : State} (h : EndsInJoinTest n s t) : PoolFollows n s t := by
  obtain ⟨u, rfl, hp, ho, hm, ha, hc⟩ := h
  exact poolFollows_joinTest hm ha ho (fun hpool => goesOnWaiting_same hpool hp ho ha hc) fun _ => hp

/-- The frame and the conditioning before the event leave pool, class and sender. -/
theorem EndsInJoinTest.of_sampled {n : LineNo} {p : Profile} {code : LoopCode} {s t : State}
    (h : EndsInJoinTest n (s.sampled n p code) t) : EndsInJoinTest n s t := by
  obtain ⟨u, rfl, hp, ho, hm, ha, hc⟩ := h
  refine ⟨u, rfl, hp, fun m hmn => ?_, hm, ?_, ?_⟩
  · rw [ho m hmn, line_setLine_of_ne _ _ hmn]
    rfl
  · rw [ha, line_setLine_self]
    rfl
  · rw [hc, line_setLine_self]
    rfl

/-! ### The flash (R26, R62, R63) -/

/-- The condition set of a flash: STORE_FULL when its mapped key finds no room (R63). -/
def flashSet (p : Profile) (l : Line) : CondSet := Cond.when (offerDrops (flashKeys p) l.store) Cond.storeFull

/-- The record after an untrapped flash (R26, R63). -/
def Line.flashed (p : Profile) (l : Line) : Line :=
  { ({ l with intervalTimer := 0, sticky := l.sticky ||| flashSet p l } : Line).flashRestart p with
    store := offer (flashKeys p) l.store }

theorem flashRestart_spec (p : Profile) (l : Line) :
    (l.flashRestart p).store = l.store ∧ (l.flashRestart p).attached = l.attached ∧ (l.flashRestart p).cls = l.cls
      ∧ (l.main = .collecting ∨ l.main = .through →
        (l.flashRestart p).main = .collecting ∨ (l.flashRestart p).main = .through) := by
  unfold Line.flashRestart
  split
  · exact ⟨rfl, rfl, rfl, fun _ => .inl rfl⟩
  · exact ⟨rfl, rfl, rfl, id⟩

theorem flashed_sameButSender {l l' : Line} (p : Profile) (h : SameButSender l l') :
    SameButSender (l.flashed p) (l'.flashed p) := by
  rw [h]
  unfold Line.flashed Line.flashRestart
  simp only
  split <;> rfl

section Flash

variable {n : LineNo} {p : Profile} (d : DevTime) {v : State} (hp : (v.line n).adopted = some p)
include hp

/-- A flash whose set is trapped: its record, the suspension and its record; nothing stored, nothing restarted (R88). -/
theorem takeFlash_trapped (h : ¬ flashSet p (v.line n) &&& p.trapMask = 0) :
    (takeFlash n p d v).line n = suspendedLine (if (v.line n).main = .through then .through else .collecting)
        { v.line n with intervalTimer := 0 }
      ∧ LeavesTheList n v (takeFlash n p d v)
      ∧ Recorded (⟨some n, d, .flash .discarded⟩ :: setRecords n d p (flashSet p (v.line n)) (v.line n).main) v
        (takeFlash n p d v) := by
  have htraps : (v.line n).traps (flashSet p (v.line n)) = true := (traps_iff hp).2 h
  unfold takeFlash
  extract_lets l full set s1 s2
  rw [if_pos (show l.traps set = true from htraps)]
  obtain ⟨⟨-, hr⟩, hl, hpool⟩ := suspendLine_spec n set (resumeTargetOf l.main) l.main d
    (handOver (lineRecord n d (.flash .discarded)) s1)
  have hs1 : s1.line n = { v.line n with intervalTimer := 0 } := by
    simp only [s1, line_setLine_self, Line.applySet]
    rw [if_pos (show ({ l with intervalTimer := 0 } : Line).traps set = true from htraps)]
    rfl
  refine ⟨?_, ?_, ?_⟩
  · rw [hl, line_handOver, hs1]
    rfl
  · exact hpool.trans (by simp [leaveWait, s1])
  · have htrap : (s1.line n).trapped set = flashSet p (v.line n) &&& p.trapMask := by
      rw [hs1]
      simp only [Line.trapped, Line.trapMask, hp]
      rfl
    have hall := ((setLine_records n v ({ l with intervalTimer := 0 }.applySet false set)).2.trans
      (handOver_recorded (lineRecord n d (.flash .discarded)) s1)).trans hr
    rw [line_handOver, htrap] at hall
    rw [setRecords, if_neg h]
    exact hall

/-- A flash whose set is not trapped: its key, its restart, its record, and the joining test (R26, R63, R121). -/
theorem takeFlash_untrapped (hd : (v.line n).main = .collecting ∨ (v.line n).main = .through)
    (h : flashSet p (v.line n) &&& p.trapMask = 0) :
    SameButSender ((v.line n).flashed p) ((takeFlash n p d v).line n) ∧ EndsInJoinTest n v (takeFlash n p d v)
      ∧ Recorded [⟨some n, d, .flash (flashDisposition p (offerDrops (flashKeys p) (v.line n).store))⟩] v
        (takeFlash n p d v) := by
  have htraps : ¬ (v.line n).traps (flashSet p (v.line n)) = true := mt (traps_iff hp).1 (not_not.2 h)
  unfold takeFlash
  extract_lets l full set s1 s2
  rw [if_neg (show ¬ l.traps set = true from htraps)]
  have hs1 : s1.line n = { v.line n with intervalTimer := 0, sticky := (v.line n).sticky ||| flashSet p (v.line n) } := by
    simp only [s1, line_setLine_self, Line.applySet]
    rw [if_neg (show ¬ ({ l with intervalTimer := 0 } : Line).traps set = true from htraps)]
    rfl
  obtain ⟨hstore, hatt, hcls, hmain⟩ := flashRestart_spec p (s1.line n)
  have hs2 : s2.line n = (v.line n).flashed p := by
    simp only [s2, offerTo, line_setLine_self, hstore]
    rw [hs1]
    rfl
  have hrec : LineRecords n [lineRecord n d (.flash (flashDisposition p full))] v
      (handOver (lineRecord n d (.flash (flashDisposition p full))) s2) :=
    ((setLine_records n v ({ l with intervalTimer := 0 }.applySet false set)).trans
      ((setLine_records n s1 _).trans (offerTo_records n _ _))).trans (handOver_records n _ s2)
  have hjoin := joinTest_event n (handOver (lineRecord n d (.flash (flashDisposition p full))) s2)
  refine ⟨?_, ⟨_, rfl, ?_, fun m hm => ?_, ?_, ?_, ?_⟩, ?_⟩
  · have hsame := hjoin.2.1 n
    rwa [line_handOver, hs2] at hsame
  · simp [s2, s1, offerTo]
  · simp [s2, s1, offerTo, hm]
  · rw [line_handOver]
    simp only [s2, offerTo, line_setLine_self]
    exact hmain (by rw [hs1]; exact hd)
  · rw [line_handOver]
    simp only [s2, offerTo, line_setLine_self]
    rw [hatt, hs1]
  · rw [line_handOver]
    simp only [s2, offerTo, line_setLine_self]
    rw [hcls, hs1]
  · exact hrec.2.trans hjoin.recorded

end Flash

section Events

variable {n : LineNo} {p : Profile} {l : Line} (marg : CondSet) (d : DevTime) (hp : l.adopted = some p)
  (hd : l.main = .collecting ∨ l.main = .through) (hs : l.sub = .idle) (hb : p.bMin ≤ l.intervalTimer)
  (hb' : p.bMax < l.intervalTimer) (hf : l.intervalTimer ≤ p.fMax)
include hd hs hb hb' hf

theorem makeStart_flash {v : State} (hv : SameButSender l (v.line n)) : makeStart n p marg d v = takeFlash n p d v := by
  have hflash : isFlashLength p l.intervalTimer = true := by
    simp only [isFlashLength, decide_eq_true_eq]
    omega
  rw [makeStart_idle marg d hv hd hs hb, endBreakIdle, if_neg (by omega), if_pos hflash]

include hp

theorem settles_trappedFlash (h : ¬ flashSet p l &&& p.trapMask = 0) :
    Settles n l (suspendedLine (if l.main = .through then .through else .collecting) { l with intervalTimer := 0 })
      (⟨some n, d, .flash .discarded⟩ :: setRecords n d p (flashSet p l) l.main) (LeavesTheList n)
      (makeStart n p marg d) := by
  intro v hv
  obtain ⟨hm', ha', hset⟩ : (v.line n).main = l.main ∧ (v.line n).adopted = l.adopted
      ∧ flashSet p (v.line n) = flashSet p l := by rw [hv]; exact ⟨rfl, rfl, rfl⟩
  obtain ⟨hl, hlist, hr⟩ := takeFlash_trapped d (ha'.trans hp) (by rwa [hset])
  rw [makeStart_flash marg d hd hs hb hb' hf hv]
  rw [hset, hm'] at hr
  refine ⟨?_, hlist, hr⟩
  rw [hl, hm', hv]
  rfl

theorem settles_flash (h : flashSet p l &&& p.trapMask = 0) :
    Settles n l (l.flashed p) [⟨some n, d, .flash (flashDisposition p (offerDrops (flashKeys p) l.store))⟩]
      (EndsInJoinTest n) (makeStart n p marg d) := by
  intro v hv
  obtain ⟨hm', ha', hset, hstore⟩ : (v.line n).main = l.main ∧ (v.line n).adopted = l.adopted
      ∧ flashSet p (v.line n) = flashSet p l ∧ (v.line n).store = l.store := by rw [hv]; exact ⟨rfl, rfl, rfl, rfl⟩
  obtain ⟨hl, hjoin, hr⟩ := takeFlash_untrapped d (ha'.trans hp) (by rwa [hm']) (by rwa [hset])
  rw [makeStart_flash marg d hd hs hb hb' hf hv]
  rw [hstore] at hr
  exact ⟨(flashed_sameButSender p hv).trans hl, hjoin, hr⟩

end Events

/-! ### The flash in the words of the rules -/

section Words

variable (p : Profile) {l : Line} (h : l.store.length ≤ 32)
include h

/-- The mapped key of a flash finds no room exactly in a full store (R63). -/
theorem flash_drops : offerDrops (flashKeys p) l.store = decide (p.flashMapping ≠ none ∧ 32 ≤ l.store.length) := by
  cases hm : p.flashMapping with
  | none => simpa [offerDrops, flashKeys, hm, Config.storeRoom] using h
  | some k =>
    simp [offerDrops, flashKeys, hm, Config.storeRoom]

theorem flash_store : offer (flashKeys p) l.store = (match p.flashMapping with
    | some k => if 32 ≤ l.store.length then l.store else l.store ++ [⟨k, .flash⟩]
    | none => l.store) := by
  cases hm : p.flashMapping with
  | none => simp [offer, flashKeys, hm]
  | some k =>
    by_cases hf : 32 ≤ l.store.length
    · simp [offer, flashKeys, hm, Config.storeRoom, hf, show 32 - l.store.length = 0 by omega]
    · obtain ⟨r, hr⟩ : ∃ r, 32 - l.store.length = r + 1 := ⟨31 - l.store.length, by omega⟩
      simp [offer, flashKeys, hm, Config.storeRoom, hf, hr]

theorem flash_set : flashSet p l = if p.flashMapping ≠ none ∧ 32 ≤ l.store.length then 0x040 else 0 := by
  simp only [flashSet, flash_drops p h, Cond.when, decide_eq_true_eq]
  rfl

theorem flash_disposition : flashDisposition p (offerDrops (flashKeys p) l.store)
    = if p.flashMapping = none then .none
      else if p.flashMapping ≠ none ∧ 32 ≤ l.store.length then .dropped else .stored := by
  rw [flash_drops p h]
  cases hm : p.flashMapping <;> simp [flashDisposition, hm]

end Words

/-- A flash in THROUGH with flash-restart on collects anew (R26). -/
theorem flashed_restart {p : Profile} {l : Line} (hm : l.main = .through) (hr : p.flashRestart = true) :
    l.flashed p = { trainIdle l with
      intervalTimer := 0, sticky := l.sticky ||| flashSet p l, store := offer (flashKeys p) l.store
      main := .collecting, digits := [], completionTimer := none } := by
  simp [Line.flashed, Line.flashRestart, Line.dropTrain, trainIdle, hm, hr]

theorem flashed_stays {p : Profile} {l : Line} (h : ¬ (l.main = .through ∧ p.flashRestart = true)) :
    l.flashed p = { l with
      intervalTimer := 0, sticky := l.sticky ||| flashSet p l, store := offer (flashKeys p) l.store } := by
  simp only [Line.flashed, Line.flashRestart]
  rw [if_neg h]

/-- Settles O20, by the main state, the sub-state and the length of the break. -/
theorem longBreaksAndFlashes : Obligations.LongBreaksAndFlashes := by
  intro frame n p s hw hshift hp hskip hroom ht l b d dialling marg full set flashed disposition hb
  obtain ⟨t, hexec, hframe⟩ := frame_taken frame n hw hshift
  have hcond : dialling → (s.line n).main.conditioning = true := fun hd =>
    conditioning_of_inCall (inCall_of_dialling hd)
  have hidle : l.sub = .idle → (s.line n).conditioned p (frameCode frame n) = l := fun hs =>
    (conditioned_noTrain (l := s.line n) p (.inl hs)).1
  have hset : flashSet p l = set := flash_set p hroom
  have hstore : offer (flashKeys p) l.store = flashed.store := flash_store p (l := l) hroom
  refine ⟨t, hexec, fun hd hs hb' => ?_, fun hd hs hb' hf => ?_, fun hd hs hb' hf htrap => ?_,
    fun hd hs hb' hf htrap => ?_, fun hm => ?_⟩
  · obtain ⟨hl1, hmarg⟩ := conditioned_inTrain (code := frameCode frame n) (l := s.line n) p hd
      (by rw [show (s.line n).sub = .brk from hs]; simp)
    exact hframe.makeStart (hcond hd) hp hskip ht (by
      rw [hl1, hmarg]; exact settles_longBreakInTrain marg _ hp hd hs hb hb')
  · exact hframe.makeStart (hcond hd) hp hskip ht (by
      rw [hidle hs]; exact settles_longBreakAlone _ d hp hd hs hb hb' hf)
  · have h := hframe.makeStart (hcond hd) hp hskip ht (by
      rw [hidle hs]; exact settles_trappedFlash _ d hp hd hs hb hb' hf (by rwa [hset]))
    rwa [hset] at h
  · obtain ⟨hl, hr⟩ := hframe.makeStart (hcond hd) hp hskip ht (by
      rw [hidle hs]; exact settles_flash _ d hp hd hs hb hb' hf (by rwa [hset]))
    refine ⟨fun hm hrestart => ?_, fun hm => ?_, fun ho => ⟨(hr ho).1.of_sampled.poolFollows, ?_⟩⟩
    · rw [flashed_restart hm hrestart, hset, hstore] at hl
      exact hl
    · have hstays : ¬ (l.main = .through ∧ p.flashRestart = true) := by
        rintro ⟨h1, h2⟩
        rcases hm with hm | hm
        · simp [h1] at hm
        · simp [h2] at hm
      rw [flashed_stays hstays, hset, hstore] at hl
      exact hl
    · rw [← show flashDisposition p (offerDrops (flashKeys p) l.store) = disposition from flash_disposition p hroom]
      exact (hr ho).2
  · obtain ⟨hl1, -⟩ := conditioned_noTrain (code := frameCode frame n) (l := s.line n) p
      (.inr (by rw [show (s.line n).main = .suspended from hm]; simp))
    exact hframe.makeStart (by rw [show (s.line n).main = .suspended from hm]; rfl) hp hskip ht (by
      rw [hl1]; exact settles_suspendedBreak _ d hm hb)

end Sys2Proof.Machine
end

section
/-! SUPPORT. The numbering of a dial (O28). -/

namespace Sys2Proof.Machine

/-- A check that fails makes the profile a bad one (R170). -/
theorem checkProfile_badField {ws : List Word} {c : Bool × Nat} (hsum : halfSum ws = 0) (hc : c ∈ profileChecks ws)
    (hfails : c.1 = true) : ∃ f, checkProfile ws = .badField f := by
  cases hf : firstFailure (profileChecks ws) with
  | none => exact absurd (firstFailure_none hf c hc) (by simp [hfails])
  | some f => exact ⟨f, by simp [checkProfile, hsum, hf]⟩

/-- A numbering coded 3 fails check 4 (R170). -/
theorem numberingCheck_mem {ws : List Word} (h : byteAt ws 2 % 4 = 3) : (true, 4) ∈ profileChecks ws := by
  simp [profileChecks, h]

section Counts

variable {n : Nat}

theorem digitKey_none (m : Numbering) (h : 11 ≤ n) : digitKey m n = none := if_pos (by omega)

theorem digitKey_direct (h : n ≤ 10) : digitKey .direct n = some (Fin.ofNat 16 (n % 10)) := if_neg (by omega)

theorem digitKey_inverse (h : n ≤ 10) : digitKey .inverse n = some (Fin.ofNat 16 (10 - n)) := if_neg (by omega)

theorem digitKey_offset (h : n ≤ 10) : digitKey .offset n = some (Fin.ofNat 16 (n - 1)) := if_neg (by omega)

/-- Every mapped key is a digit (R57). -/
theorem digitKey_le {m : Numbering} {k : Key} (h1 : 1 ≤ n) (h : n ≤ 10) (hk : digitKey m n = some k) : k.val ≤ 9 := by
  cases m with
  | direct =>
    obtain rfl := Option.some.inj ((digitKey_direct h).symm.trans hk)
    simp only [Fin.val_ofNat]
    omega
  | inverse =>
    obtain rfl := Option.some.inj ((digitKey_inverse h).symm.trans hk)
    simp only [Fin.val_ofNat]
    omega
  | offset =>
    obtain rfl := Option.some.inj ((digitKey_offset h).symm.trans hk)
    simp only [Fin.val_ofNat]
    omega

end Counts

/-- Settles O28: the three numberings count by count, and the check of the numbering field. -/
theorem numberingOfADial : Obligations.NumberingOfADial := by
  refine ⟨fun n h1 h => ⟨?_, ?_, ?_, fun m k hk => digitKey_le h1 h hk⟩, fun n m h _ => digitKey_none m h,
    fun p m ev l => ⟨rfl, rfl⟩, fun ws hsum h3 => checkProfile_badField hsum (numberingCheck_mem h3) rfl⟩
  · rw [digitKey_direct h, Option.map_some, Option.some.injEq, Fin.val_ofNat]
    split <;> omega
  · rw [digitKey_inverse h, Option.map_some, Option.some.injEq, Fin.val_ofNat]
    omega
  · rw [digitKey_offset h, Option.map_some, Option.some.injEq, Fin.val_ofNat]
    omega

end Sys2Proof.Machine
end

section
/-! SUPPORT. The end of a pulse break inside a train (O18). -/

namespace Sys2Proof.Machine

/-! ### Pulse breaks in the words of the rules (R50, R51, R64, R71, R72) -/

theorem clampPeriod_eq (p : Profile) (period : Nat) :
    clampPeriod p period = if period < p.pLo then p.pLo else if p.pHi < period then p.pHi else period := by
  unfold clampPeriod
  split
  · rfl
  · split <;> omega

theorem when_decide (P : Prop) [Decidable P] (c : CondSet) : Cond.when (decide P) c = if P then c else 0 := by
  simp [Cond.when]

theorem pulseSet_eq (p : Profile) (b m : Nat) (marg : CondSet) : pulseSet p b m marg =
    (if 100 * b / (b + m) < p.ratioLo ∨ p.ratioHi < 100 * b / (b + m) then 0x002 else 0)
      ||| (if b + m < p.pLo ∨ p.pHi < b + m then 0x004 else 0) ||| marg := by
  rw [pulseSet, ratioBad, speedBad, when_decide, when_decide]
  rfl

/-- The record of a line whose pulse break ended at length b, before its set is evaluated (R50, R54, R72, R76). -/
def Line.pulseCounted (p : Profile) (b estimate : Nat) (l : Line) : Line :=
  { l with
    estimate := estimate, pulses := min (l.pulses + 1) 15, pulseBreak := b, sub := .make
    threshold := some (thresholdOf p estimate), intervalTimer := 0 }

theorem settles_pulseBreak {n : LineNo} {p : Profile} {l : Line} {marg set : CondSet} {estimate : Nat} (d : DevTime)
    (hp : l.adopted = some p) (hd : l.main = .collecting ∨ l.main = .through) (hs : l.sub = .brk) (hr : l.reopened = false)
    (hb : p.bMin ≤ l.intervalTimer) (hb' : l.intervalTimer ≤ p.bMax)
    (hset : pulseSet p l.pulseBreak l.heldMake marg = set)
    (hest : track p (l.pulseBreak + l.heldMake) l.estimate = estimate) :
    Settles n l (afterSet p true set (l.pulseCounted p l.intervalTimer estimate)) (setRecords n d p set l.main)
      (ListAfterSet p set n) (makeStart n p marg d) := by
  intro v hv
  obtain ⟨hr', hset', hest'⟩ : (v.line n).reopened = false
      ∧ pulseSet p (v.line n).pulseBreak (v.line n).heldMake marg = set
      ∧ track p ((v.line n).pulseBreak + (v.line n).heldMake) (v.line n).estimate = estimate := by
    rw [hv]
    exact ⟨hr, hset, hest⟩
  have he : makeStart n p marg d v
      = raiseSet n true set d (v.setLine n ((v.line n).pulseCounted p l.intervalTimer estimate)) := by
    rw [makeStart_brk marg d hv hd hs (.inl hb), endBreakInTrain, if_neg (by omega), if_neg (by simp [hr']), ← hset',
      ← hest']
    rfl
  rw [he]
  exact settled_raiseSet (L := l.pulseCounted p l.intervalTimer estimate) true set d v (by rw [hv]; rfl) hp

/-- Settles O18: the set is raised on the record with the pulse counted; a trapped one gives that train up. -/
theorem pulseBreakEnds : Obligations.PulseBreakEnds := by
  intro frame n p s hw hshift hp hskip hd hs hr _ ht b hb hb' l marginal period ratio used delta q estimate set l1
  obtain ⟨t, hexec, hframe⟩ := frame_taken frame n hw hshift
  obtain ⟨hl1, hmarg⟩ := conditioned_inTrain (code := frameCode frame n) (l := s.line n) p hd (by simp [hs])
  have hset : pulseSet p l.pulseBreak l.heldMake (if marginal then 0x020 else 0) = set := pulseSet_eq _ _ _ _
  have hest : track p period l.estimate = estimate := by
    rw [track, clampPeriod_eq]
    rfl
  obtain ⟨hl, hrec⟩ := hframe.makeStart (conditioning_of_inCall (inCall_of_dialling hd)) hp hskip ht (by
    rw [hl1, hmarg]
    exact settles_pulseBreak _ hp hd hs hr hb hb' hset hest)
  refine ⟨t, hexec, fun h => ?_, fun h => ?_, hrec⟩
  · rw [afterSet, if_pos h] at hl
    exact hl
  · rw [afterSet, if_neg h] at hl
    exact hl

end Sys2Proof.Machine
end

section
/-! SUPPORT. Events that leave a line's place in the Sender Pool to what follows them, and the joining test made twice
(R121, R127). -/

namespace Sys2Proof.Machine

/-! ### The joining test made twice -/

/-- Line n waits or holds a sender, so that it does not join (R127). -/
def State.Placed (s : State) (n : LineNo) : Prop := s.Waits n ∨ (s.line n).attached ≠ none

theorem joinTest_placed {n : LineNo} {s : State} (h : s.Placed n) : joinTest n s = s := by
  rcases h with h | h
  · exact joinTest_waiting (waiting_iff.2 h)
  · obtain ⟨k, hk⟩ := Option.ne_none_iff_exists'.1 h
    exact joinTest_attached hk

/-- A grant takes the line it serves out of the list, and no other (R128, R130). -/
theorem State.Placed.grantOne {n : LineNo} {s : State} (h : s.Placed n) (b : Bool) : (grantOne b s).Placed n := by
  unfold Machine.grantOne
  split
  · rename_i k e rest hk hw
    by_cases he : e.line = n
    · exact .inr (by simp [attach, he])
    · rcases h with ⟨f, hf, rfl⟩ | ha
      · exact .inl ⟨f, by simp [attach, leaveWait, hf, Ne.symm he], rfl⟩
      · exact .inr (by simpa [attach, Ne.symm he] using ha)
  · exact h

theorem State.Placed.grantMany {n : LineNo} {s : State} (h : s.Placed n) (b : Bool) (fuel : Nat) :
    (grantMany b fuel s).Placed n := by
  induction fuel generalizing s with
  | zero => exact h
  | succ fuel ih => exact ih (h.grantOne b)

/-- After its joining test a line does not join again. -/
theorem joinTest_joinTest (n : LineNo) (s : State) : joinTest n (joinTest n s) = joinTest n s := by
  by_cases hj : mayJoin n s = true
  · have hjoin : (joinWait n s).Placed n := .inl ⟨⟨n, s.pool.joins⟩, insertWait_mem.2 (.inl rfl), rfl⟩
    have he : joinTest n s = arbitrate false (joinWait n s) := if_pos hj
    rw [he]
    exact joinTest_placed (hjoin.grantMany false 16)
  · have he : joinTest n s = s := if_neg hj
    rw [he, he]

/-- A completion has made the joining test of its line (R111). -/
theorem joinTest_completeNumber (n : LineNo) (p : Profile) (o : NumberOutcome) (ev : Evaluation) (d : DevTime) (s : State) :
    joinTest n (completeNumber n p o ev d s) = completeNumber n p o ev d s := joinTest_joinTest n _

/-! ### The first part of an event -/

/-- State u comes of s by an event of line n, not yet over, that leaves the pool and the line's sender and class, and keeps
a line in COLLECTING or THROUGH with its keys. -/
structure PlaceKept (n : LineNo) (s u : State) : Prop where
  pool : u.pool = s.pool
  others : OtherLinesSame n s u
  attached : (u.line n).attached = (s.line n).attached
  cls : (u.line n).cls = (s.line n).cls
  dialling : (u.line n).main = .collecting ∨ (u.line n).main = .through
  store : (s.line n).store ≠ [] → (u.line n).store ≠ []

section Kept

variable {n : LineNo} {s u t : State} (h : PlaceKept n s u)
include h

theorem PlaceKept.sender (k : SenderNo) : u.sender k = s.sender k := by simp [State.sender, h.pool]

theorem PlaceKept.attached_all (m : LineNo) : (u.line m).attached = (s.line m).attached := by
  by_cases hm : m = n
  · rw [hm, h.attached]
  · rw [h.others m hm]

theorem PlaceKept.cls_all (m : LineNo) : (u.line m).cls = (s.line m).cls := by
  by_cases hm : m = n
  · rw [hm, h.cls]
  · rw [h.others m hm]

theorem PlaceKept.poolLaws (hs : PoolLaws s) : PoolLaws u := by
  obtain ⟨hmatch, hlist⟩ := (poolLaws_iff s).1 hs
  refine (poolLaws_iff u).2 ⟨hmatch.congr h.attached_all fun k => by rw [h.sender]; exact ⟨rfl, Iff.rfl⟩, ?_⟩
  rw [h.pool]
  refine hlist.sublist (List.Sublist.refl _) fun e he => ⟨?_, h.cls_all _⟩
  obtain ⟨hd, hstore, hnone⟩ := hlist.line_wants he
  by_cases hn : e.line = n
  · rw [hn] at hstore hnone ⊢
    exact ⟨h.dialling, h.store hstore, h.attached.trans hnone⟩
  · rw [h.others _ hn]
    exact ⟨hd, hstore, hnone⟩

/-- What the rest of the event does to the line's place, the whole event does. -/
theorem PlaceKept.poolFollows (hf : PoolFollows n u t) : PoolFollows n s t := by
  intro hpool harb
  have hothers : OtherLinesSame n u t ↔ OtherLinesSame n s t :=
    ⟨fun ht m hm => (ht m hm).trans (h.others m hm), fun ht m hm => (ht m hm).trans (h.others m hm).symm⟩
  have hall := hf (h.poolLaws hpool) (by simpa only [ArbiterLaw, h.sender, h.pool] using harb)
  simpa only [GoesOnWaiting, JoinsWithKeys, h.pool, h.sender, h.attached, h.cls_all, hothers] using hall

theorem PlaceKept.leavesTheList (hl : LeavesTheList n u t) : LeavesTheList n s t := by
  simpa only [LeavesTheList, h.pool] using hl

/-- The event goes on with the joining test of its line (R121). -/
theorem PlaceKept.joinTest : PoolFollows n s (joinTest n u) :=
  poolFollows_joinTest h.dialling h.attached h.others
    (fun hpool => goesOnWaiting_same hpool h.pool h.others h.attached h.cls) fun _ => h.pool

/-- The event goes on with a class raise and then the joining test of its line (R105, R121, R129). -/
theorem PlaceKept.joinTest_raiseClass (ev : Evaluation) : PoolFollows n s (Machine.joinTest n (raiseClass n ev u)) := by
  have hraise := raiseClass_raised n ev u
  have ha : ((raiseClass n ev u).line n).attached = (u.line n).attached := by rw [hraise]
  refine h.poolFollows (poolFollows_joinTest ?_ ha (raiseClass_others n ev u)
    (fun hpool => goesOnWaiting_raiseClass hpool rfl (raiseClass_others n ev u) ha rfl) (raiseClass_pool_absent ev))
  rw [raiseClass_main]
  exact h.dialling

end Kept

end Sys2Proof.Machine
end

section
/-! SUPPORT. The end of a digit (O22): its record, its set, and the evaluation of the call digits (R56 to R61, R97, R98,
R103 to R108). -/

namespace Sys2Proof.Machine

/-! ### The decision after a digit (R106 to R108) -/

/-- The selected entry's length is reached by c digits, and it is not blocked (R106). -/
abbrev Evaluation.Exact (ev : Evaluation) (c : Nat) : Prop :=
  (∃ i e m, ev.selected = some (i, e) ∧ e.length = some m ∧ m ≤ c) ∧ ev.blocked = false

section Outcome

variable {action : UnmatchedAction} {ev : Evaluation} {c : Nat}

theorem exact_iff : (exactReached ev c && !ev.blocked) = true ↔ ev.Exact c := by
  have hreached : exactReached ev c = true ↔ ∃ i e m, ev.selected = some (i, e) ∧ e.length = some m ∧ m ≤ c := by
    unfold exactReached
    rcases ev.selected with _ | ⟨i, e⟩
    · simp
    · cases he : e.length <;> simp [he]
  rw [Bool.and_eq_true, hreached, Bool.not_eq_true']

theorem unmatched_iff : (!ev.live && action == .completeNow) = true ↔ ev.live = false ∧ action = .completeNow := by simp

theorem outcomeAfterDigit_exact (h : ev.Exact c) : outcomeAfterDigit action ev c = some .exact := if_pos (exact_iff.2 h)

variable (h : ¬ ev.Exact c)
include h

theorem outcomeAfterDigit_unmatched (hu : ev.live = false ∧ action = .completeNow) :
    outcomeAfterDigit action ev c = some .unmatched := by
  rw [outcomeAfterDigit, if_neg (mt exact_iff.1 h), if_pos (unmatched_iff.2 hu)]

variable (hu : ¬ (ev.live = false ∧ action = .completeNow))
include hu

theorem outcomeAfterDigit_full (hc : 24 ≤ c) : outcomeAfterDigit action ev c = some .full := by
  rw [outcomeAfterDigit, if_neg (mt exact_iff.1 h), if_neg (mt unmatched_iff.1 hu), if_pos hc]

theorem outcomeAfterDigit_none (hc : c < 24) : outcomeAfterDigit action ev c = none := by
  rw [outcomeAfterDigit, if_neg (mt exact_iff.1 h), if_neg (mt unmatched_iff.1 hu), if_neg (Nat.not_le.2 hc)]

end Outcome

/-! ### The evaluation after a digit (R103, R105 to R108) -/

section Evaluated

variable {n : LineNo} {p : Profile} {ev : Evaluation} {s u : State} (d : DevTime) (h : PlaceKept n s u)
  (hev : evaluate u.plan.table (u.line n).digits = ev)
include h hev

/-- The number completes: the line, its place in the pool, the records. -/
theorem evaluated_completes {o : NumberOutcome} (hp : (u.line n).adopted = some p)
    (ho : outcomeAfterDigit p.unmatchedAction ev (u.line n).digits.length = some o) :
    SameButSender (numberLine p o ev (u.line n)) ((joinTest n (evaluateAfterDigit n p d u)).line n)
      ∧ (if numberSet p o ev (u.line n) &&& p.trapMask = 0 then PoolFollows n s (joinTest n (evaluateAfterDigit n p d u))
        else LeavesTheList n s (joinTest n (evaluateAfterDigit n p d u)))
      ∧ Recorded (numberRecords n p o ev d (u.line n)) u (joinTest n (evaluateAfterDigit n p d u)) := by
  have he : joinTest n (evaluateAfterDigit n p d u) = completeNumber n p o ev d (raiseClass n ev u) := by
    simp only [evaluateAfterDigit, hev, ho, joinTest_completeNumber]
  rw [he]
  obtain ⟨hl, hpool, hr⟩ := completion_spec o ev d hp
  refine ⟨hl, ?_, hr⟩
  split at hpool
  · rename_i h0
    rw [if_pos h0]
    exact h.poolFollows hpool
  · rename_i h0
    rw [if_neg h0]
    exact h.leavesTheList hpool

/-- The number stays open. -/
theorem evaluated_staysOpen (ho : outcomeAfterDigit p.unmatchedAction ev (u.line n).digits.length = none) :
    SameButSender { u.line n with cls := raisedClass ev (u.line n) } ((joinTest n (evaluateAfterDigit n p d u)).line n)
      ∧ PoolFollows n s (joinTest n (evaluateAfterDigit n p d u))
      ∧ Recorded [] u (joinTest n (evaluateAfterDigit n p d u)) := by
  have he : evaluateAfterDigit n p d u = raiseClass n ev u := by simp only [evaluateAfterDigit, hev, ho]
  rw [he]
  have hjoin := joinTest_event n (raiseClass n ev u)
  refine ⟨?_, h.joinTest_raiseClass ev, (raiseClass_records n ev u).2.trans hjoin.recorded⟩
  have hl := hjoin.2.1 n
  rwa [raiseClass_raised] at hl

end Evaluated

/-! ### The digit end, before the evaluation (R56, R85 to R89) -/

/-- The key of the pulses counted (R57, R58). -/
abbrev Line.dialled (p : Profile) (l : Line) : Option Key := digitKey p.numbering l.pulses

/-- The keys a digit end offers to the store (R59, R60). -/
def Line.offers (p : Profile) (l : Line) : List StoredKey := digitKeys p l.main (l.dialled p)

/-- The condition set of a digit end (R56, R58). -/
def Line.digitEndSet (p : Profile) (l : Line) : CondSet :=
  digitSet (l.dialled p) (offerDrops (l.offers p) l.store)

/-- The DIGIT record of a digit end under a disposition (R61). -/
def Line.digitRecord (n : LineNo) (d : DevTime) (p : Profile) (x : Disposition) (l : Line) : Record :=
  lineRecord n d (.digit (l.dialled p) l.pulses x (l.causes ||| l.digitEndSet p) l.estimate)

/-- The record after a digit end, before a trapped set suspends the line (R56, R86). -/
def Line.digitEnded (set : CondSet) (l : Line) : Line :=
  { trainIdle l with causes := l.causes ||| set, lastCauses := l.causes ||| set }

/-- The record with an untrapped set in its cause and sticky flags (R86, R87). -/
def Line.marked (set : CondSet) (l : Line) : Line := { l with causes := l.causes ||| set, sticky := l.sticky ||| set }

/-- The record after an untrapped digit end, before the evaluation (R56, R59, R60, R87, R97, R98). -/
def Line.digitTaken (p : Profile) (l : Line) : Line :=
  { ({ (l.marked (l.digitEndSet p)).collect (l.dialled p) with store := offer (l.offers p) l.store } : Line).dropTrain with
    lastCauses := l.causes ||| l.digitEndSet p }

/-- The state after an untrapped digit end, before the evaluation and the joining test. -/
def takeDigit (n : LineNo) (p : Profile) (d : DevTime) (s : State) : State :=
  let l := s.line n
  handOver (l.digitRecord n d p (digitDisposition p l.main (l.dialled p) (offerDrops (l.offers p) l.store)))
    (s.setLine n (l.digitTaken p))

section Digit

variable {n : LineNo} {p : Profile} (d : DevTime) {s : State} (hp : (s.line n).adopted = some p)
include hp

/-- A digit whose set is trapped is discarded, with its record, and the line suspended, with its record (R88, R89). -/
theorem endDigit_trapped (h : ¬ (s.line n).digitEndSet p &&& p.trapMask = 0) :
    (endDigit n p d s).line n = suspendedLine (if (s.line n).main = .through then .through else .collecting)
        ((s.line n).digitEnded ((s.line n).digitEndSet p))
      ∧ LeavesTheList n s (endDigit n p d s) ∧ OtherLinesSame n s (endDigit n p d s)
      ∧ Recorded [(s.line n).digitRecord n d p .discarded,
          ⟨some n, d, .exception ((s.line n).digitEndSet p &&& p.trapMask) (s.line n).main⟩] s (endDigit n p d s) := by
  have htraps : (s.line n).traps ((s.line n).digitEndSet p) = true := (traps_iff hp).2 h
  unfold endDigit
  extract_lets l key ks full set l1 collected l2 disposition l3 s1
  have ht : l.traps set = true := htraps
  rw [if_pos ht]
  obtain ⟨⟨-, hr⟩, hl, hpool⟩ := suspendLine_spec n set (resumeTargetOf l.main) l.main d s1
  have hs1 : s1.line n = (s.line n).digitEnded ((s.line n).digitEndSet p) := by
    simp only [s1, l3, l2, l1, line_handOver, line_setLine_self, if_pos ht, Line.applySet]
    rfl
  have hdisp : disposition = .discarded := if_pos ht
  refine ⟨?_, ?_, fun m hm => ?_, ?_⟩
  · rw [hl, hs1]
    rfl
  · exact hpool.trans (by simp [leaveWait, s1])
  · simp [suspendLine, s1, hm]
  · have htrap : (s1.line n).trapped set = (s.line n).digitEndSet p &&& p.trapMask := by
      rw [hs1]
      simp only [Line.trapped, Line.trapMask, Line.digitEnded, trainIdle, hp]
      rfl
    rw [htrap] at hr
    have hdigit : Recorded [lineRecord n d (.digit key l.pulses disposition l1.causes l1.estimate)] s s1 :=
      (setLine_records n s _).2.trans (handOver_recorded _ _)
    rw [hdisp] at hdigit
    exact hdigit.trans hr

/-- A digit whose set is not trapped is taken; in COLLECTING it is then evaluated (R56, R103). -/
theorem endDigit_untrapped (h : (s.line n).digitEndSet p &&& p.trapMask = 0) :
    endDigit n p d s = if (s.line n).main = .collecting ∧ ((s.line n).dialled p).isSome = true
      then joinTest n (evaluateAfterDigit n p d (takeDigit n p d s)) else joinTest n (takeDigit n p d s) := by
  have htraps : ¬ (s.line n).traps ((s.line n).digitEndSet p) = true := mt (traps_iff hp).1 (not_not.2 h)
  unfold endDigit
  extract_lets l key ks full set l1 collected l2 disposition l3 s1
  have ht : ¬ l.traps set = true := htraps
  have hl1 : l1 = l.marked set := by
    simp only [l1, Line.applySet, if_neg ht]
    rfl
  have hs1 : s1 = takeDigit n p d s := by
    simp only [s1, l3, l2, collected, disposition, if_neg ht, hl1]
    rfl
  rw [if_neg ht, hs1]

end Digit

/-! ### The line of a digit taken -/

section Taken

variable {p : Profile} {l : Line}

theorem collect_same {key : Option Key} (h : l.main = .through ∨ key = none) : l.collect key = l := by
  cases key with
  | none => rfl
  | some k => exact if_neg (by simp [h.resolve_right])

theorem collect_some (k : Key) (hp : l.adopted = some p) (hm : l.main = .collecting) : l.collect (some k) =
    { l with digits := l.digits ++ [k], completionTimer := if p.tComplete = 0 then none else some 0 } := by
  simp only [Line.collect, if_pos hm, Line.restartTimer, hp]

theorem digitTaken_notCollected (h : l.main = .through ∨ l.dialled p = none) : l.digitTaken p =
    { l.digitEnded (l.digitEndSet p) with sticky := l.sticky ||| l.digitEndSet p, store := offer (l.offers p) l.store } := by
  rw [Line.digitTaken, collect_same (l := l.marked _) h]
  rfl

theorem digitTaken_collected {k : Key} (hp : l.adopted = some p) (hm : l.main = .collecting) (hk : l.dialled p = some k) :
    l.digitTaken p = { l.digitEnded (l.digitEndSet p) with
      sticky := l.sticky ||| l.digitEndSet p, store := offer (l.offers p) l.store
      digits := l.digits ++ [k], completionTimer := if p.tComplete = 0 then none else some 0 } := by
  rw [Line.digitTaken, hk, collect_some (l := l.marked _) k hp hm]
  rfl

theorem digitTaken_frame (p : Profile) (l : Line) : (l.digitTaken p).attached = l.attached ∧ (l.digitTaken p).cls = l.cls
    ∧ (l.digitTaken p).main = l.main ∧ (l.digitTaken p).store = offer (l.offers p) l.store := by
  unfold Line.digitTaken Line.collect
  split
  · split <;> exact ⟨rfl, rfl, rfl, rfl⟩
  · exact ⟨rfl, rfl, rfl, rfl⟩

end Taken

theorem takeDigit_line (n : LineNo) (p : Profile) (d : DevTime) (s : State) :
    (takeDigit n p d s).line n = (s.line n).digitTaken p := by
  rw [takeDigit, line_handOver, line_setLine_self]

theorem takeDigit_recorded (n : LineNo) (p : Profile) (d : DevTime) (s : State) :
    Recorded [(s.line n).digitRecord n d p (digitDisposition p (s.line n).main ((s.line n).dialled p)
      (offerDrops ((s.line n).offers p) (s.line n).store))] s (takeDigit n p d s) :=
  (setLine_records n s _).2.trans (handOver_recorded _ _)

/-- A digit taken leaves the line's place in the pool as it was. -/
theorem takeDigit_placeKept {n : LineNo} {s : State} (p : Profile) (d : DevTime)
    (hd : (s.line n).main = .collecting ∨ (s.line n).main = .through) : PlaceKept n s (takeDigit n p d s) := by
  obtain ⟨hatt, hcls, hmain, hstore⟩ := digitTaken_frame p (s.line n)
  refine ⟨by simp [takeDigit], fun m hm => by simp [takeDigit, hm], ?_, ?_, ?_, fun hs => ?_⟩
  all_goals rw [takeDigit_line]
  · exact hatt
  · exact hcls
  · rwa [hmain]
  · rw [hstore]
    exact offer_ne_nil hs

/-! ### The untrapped digit end (R56, R59, R60, R103) -/

/-- The disposition of an untrapped digit of the line (R58 to R60). -/
def Line.disposition (p : Profile) (l : Line) : Disposition :=
  digitDisposition p l.main (l.dialled p) (offerDrops (l.offers p) l.store)

section Untrapped

variable {n : LineNo} {p : Profile} (d : DevTime) {s : State} (hp : (s.line n).adopted = some p)
  (h : (s.line n).digitEndSet p &&& p.trapMask = 0)
include hp h

/-- A digit that does not join the call digits: its record and the joining test. -/
theorem endDigit_notCollected (hd : (s.line n).main = .collecting ∨ (s.line n).main = .through)
    (hnot : (s.line n).main = .through ∨ (s.line n).dialled p = none) :
    SameButSender ((s.line n).digitTaken p) ((endDigit n p d s).line n) ∧ PoolFollows n s (endDigit n p d s)
      ∧ Recorded [(s.line n).digitRecord n d p ((s.line n).disposition p)] s (endDigit n p d s) := by
  have he : endDigit n p d s = joinTest n (takeDigit n p d s) := by
    rw [endDigit_untrapped d hp h, if_neg]
    rintro ⟨hm, hsome⟩
    rcases hnot with hnot | hnot
    · simp [hm] at hnot
    · simp [hnot] at hsome
  have hjoin := joinTest_event n (takeDigit n p d s)
  rw [he]
  refine ⟨?_, (takeDigit_placeKept p d hd).joinTest, (takeDigit_recorded n p d s).trans hjoin.recorded⟩
  have hl := hjoin.2.1 n
  rwa [takeDigit_line] at hl

variable {k : Key} (hm : (s.line n).main = .collecting) (hk : (s.line n).dialled p = some k) {ev : Evaluation}
  (hev : evaluate s.plan.table ((s.line n).digits ++ [k]) = ev)
include hm hk hev

/-- A digit that joins the call digits is evaluated with them. -/
theorem endDigit_evaluated : endDigit n p d s = joinTest n (evaluateAfterDigit n p d (takeDigit n p d s))
    ∧ evaluate (takeDigit n p d s).plan.table ((takeDigit n p d s).line n).digits = ev
    ∧ ((takeDigit n p d s).line n).digits.length = (s.line n).digits.length + 1
    ∧ ((takeDigit n p d s).line n).adopted = some p := by
  have hplan : (takeDigit n p d s).plan = s.plan := by simp [takeDigit]
  refine ⟨by rw [endDigit_untrapped d hp h, if_pos ⟨hm, by simp [hk]⟩], ?_⟩
  rw [takeDigit_line, digitTaken_collected hp hm hk, hplan]
  exact ⟨hev, List.length_append, hp⟩

theorem endDigit_completes {o : NumberOutcome}
    (ho : outcomeAfterDigit p.unmatchedAction ev ((s.line n).digits.length + 1) = some o) :
    SameButSender (numberLine p o ev ((s.line n).digitTaken p)) ((endDigit n p d s).line n)
      ∧ (if numberSet p o ev ((s.line n).digitTaken p) &&& p.trapMask = 0 then PoolFollows n s (endDigit n p d s)
        else LeavesTheList n s (endDigit n p d s))
      ∧ Recorded ((s.line n).digitRecord n d p ((s.line n).disposition p)
          :: numberRecords n p o ev d ((s.line n).digitTaken p)) s (endDigit n p d s) := by
  obtain ⟨he, hev', hlen, hp'⟩ := endDigit_evaluated d hp h hm hk hev
  obtain ⟨hl, hpool, hr⟩ := evaluated_completes d (takeDigit_placeKept p d (.inl hm)) hev' hp' (by rwa [hlen])
  rw [takeDigit_line] at hl hpool hr
  rw [he]
  exact ⟨hl, hpool, (takeDigit_recorded n p d s).trans hr⟩

theorem endDigit_staysOpen (ho : outcomeAfterDigit p.unmatchedAction ev ((s.line n).digits.length + 1) = none) :
    SameButSender { (s.line n).digitTaken p with cls := raisedClass ev (s.line n) } ((endDigit n p d s).line n)
      ∧ PoolFollows n s (endDigit n p d s)
      ∧ Recorded [(s.line n).digitRecord n d p ((s.line n).disposition p)] s (endDigit n p d s) := by
  obtain ⟨he, hev', hlen, -⟩ := endDigit_evaluated d hp h hm hk hev
  obtain ⟨hl, hpool, hr⟩ := evaluated_staysOpen d (takeDigit_placeKept p d (.inl hm)) hev' (p := p) (by rwa [hlen])
  have hcls : raisedClass ev ((s.line n).digitTaken p) = raisedClass ev (s.line n) := by
    obtain ⟨-, hcls, -⟩ := digitTaken_frame p (s.line n)
    rw [raisedClass, raisedClass, hcls]
  rw [takeDigit_line, hcls] at hl
  rw [he]
  exact ⟨hl, hpool, (takeDigit_recorded n p d s).trans hr⟩

end Untrapped

/-! ### The digit end in the words of the rules (R58 to R60) -/

section Words

variable (p : Profile) {l : Line}

/-- A digit of the line goes to its store (R59, R60). -/
abbrev Line.Stores (p : Profile) (l : Line) : Prop :=
  if l.main = .collecting then p.sendingMode = .overlap else p.afterCompletion = .forward

theorem offers_none (h : l.dialled p = none ∨ ¬ l.Stores p) : l.offers p = [] := by
  unfold Line.offers digitKeys
  cases hk : l.dialled p with
  | none => rfl
  | some k =>
    have hs : ¬ l.Stores p := h.resolve_left (by simp [hk])
    unfold Line.Stores at hs
    split at hs
    · rename_i hm
      exact (if_pos hm).trans (if_neg hs)
    · rename_i hm
      exact (if_neg hm).trans (if_neg hs)

theorem offers_some {k : Key} (hk : l.dialled p = some k) (hs : l.Stores p) : l.offers p = [⟨k, .dialled⟩] := by
  simp only [Line.offers, digitKeys, hk]
  unfold Line.Stores at hs
  split at hs
  · rename_i hm
    exact (if_pos hm).trans (if_pos hs)
  · rename_i hm
    exact (if_neg hm).trans (if_pos hs)

/-- The disposition of a digit by state, mode and policy (R58 to R60). -/
theorem digitDisposition_eq (main : MainState) (key : Option Key) (full : Prop) [Decidable full] :
    digitDisposition p main key (decide full) =
      if key = none then .discarded
      else if main = .collecting then
        (if p.sendingMode = .enBloc then .collected else if full then .collectedDropped else .collectedStored)
      else (if p.afterCompletion = .ignore then .ignored else if full then .dropped else .stored) := by
  unfold digitDisposition
  cases key with
  | none => rfl
  | some k =>
    by_cases hm : main = .collecting
    · cases hs : p.sendingMode <;> simp [hm]
    · cases ha : p.afterCompletion <;> simp [hm]

variable (h : l.store.length ≤ 32)
include h

/-- A digit finds no room exactly in a full store (R121). -/
theorem digit_drops : offerDrops (l.offers p) l.store
    = decide (l.dialled p ≠ none ∧ l.Stores p ∧ 32 ≤ l.store.length) := by
  cases hk : l.dialled p with
  | none => simpa [offers_none p (.inl hk), offerDrops, Config.storeRoom] using h
  | some k =>
    by_cases hs : l.Stores p
    · simp only [offers_some p hk hs, offerDrops, Config.storeRoom, List.length_singleton, decide_eq_decide]
      exact ⟨fun hlt => ⟨by simp, hs, by omega⟩, fun ⟨_, _, hle⟩ => by omega⟩
    · simp only [offers_none p (.inr hs), offerDrops, Config.storeRoom, List.length_nil, decide_eq_decide]
      exact ⟨fun hlt => by omega, fun ⟨_, hs', _⟩ => absurd hs' hs⟩

theorem digit_store : offer (l.offers p) l.store = (match l.dialled p with
    | some k => if l.Stores p ∧ l.store.length < 32 then l.store ++ [⟨k, .dialled⟩] else l.store
    | none => l.store) := by
  cases hk : l.dialled p with
  | none => simp [offers_none p (.inl hk), offer]
  | some k =>
    by_cases hs : l.Stores p
    · rw [offers_some p hk hs]
      by_cases hroom : l.store.length < 32
      · rw [offer_fits _ _ (by simpa using hroom)]
        exact (if_pos ⟨hs, hroom⟩).symm
      · rw [offer_full _ _ (by omega)]
        exact (if_neg fun hc => hroom hc.2).symm
    · rw [offers_none p (.inr hs), offer_fits _ _ (by simpa using h), List.append_nil]
      exact (if_neg fun hc => hs hc.1).symm

theorem digit_set : l.digitEndSet p = (if l.dialled p = none then 0x008 else 0)
    ||| (if l.dialled p ≠ none ∧ l.Stores p ∧ 32 ≤ l.store.length then 0x040 else 0) := by
  rw [Line.digitEndSet, digitSet, digit_drops p h, when_decide]
  cases hk : l.dialled p <;> rfl

end Words

/-- INTERDIGIT_EXPIRY of a make inside a train that has reached its threshold is a digit end (R46, R56). -/
theorem interdigitExpiry_due {n : LineNo} {p : Profile} {threshold : Nat} {s : State} (hw : s.part.phase = .working)
    (hp : (s.line n).adopted = some p) (hd : (s.line n).main = .collecting ∨ (s.line n).main = .through)
    (hs : (s.line n).sub = .make) (ht : (s.line n).threshold = some threshold)
    (hdue : threshold ≤ (s.line n).intervalTimer) :
    exec (.interdigitExpiry n) s = .next (endDigit n p s.scan.sampleAt s) := by
  have hdue' : (s.line n).interdigitDue = true := by simp [Line.interdigitDue, ht, hs, dialling_iff.2 hd, hdue]
  show execInterdigitExpiry n s = _
  simp only [execInterdigitExpiry, hp]
  exact whenDue_true (by simp [working_iff.2 hw, hdue']) _ _

/-- Settles O22: a trapped set ends the digit in a suspension; otherwise the digit is taken, and in COLLECTING the
evaluation decides. -/
theorem digitEnds : Obligations.DigitEnds := by
  intro n p threshold s hw hp hd hs ht hdue hroom l d key stores full set disposition ended taken record
  have hset : (s.line n).digitEndSet p = set := digit_set p hroom
  have hdisp : (s.line n).disposition p = disposition := by
    rw [Line.disposition, digit_drops p hroom]
    exact digitDisposition_eq p _ _ _
  have hstore : offer ((s.line n).offers p) (s.line n).store = taken.store := digit_store p hroom
  have hrecord : ∀ x, (s.line n).digitRecord n d p x = record x := fun x => by
    rw [Line.digitRecord, hset]
    rfl
  refine ⟨_, interdigitExpiry_due hw hp hd hs ht hdue, fun h => ?_, fun h hnot => ?_, fun k h hm hk => ?_⟩
  · obtain ⟨hl, hlist, ho, hr⟩ := endDigit_trapped d hp (by rwa [hset])
    rw [hset] at hl hr
    rw [hrecord] at hr
    exact ⟨hl, hlist, ho, hr⟩
  · obtain ⟨hl, hpool, hr⟩ := endDigit_notCollected d hp (by rwa [hset]) hd hnot
    rw [digitTaken_notCollected hnot, hset, hstore] at hl
    rw [hdisp, hrecord] at hr
    exact ⟨hl, hpool, hr⟩
  · have hcollected : (s.line n).digitTaken p = { taken with
        digits := l.digits ++ [k], completionTimer := if p.tComplete = 0 then none else some 0 } := by
      rw [digitTaken_collected hp hm hk, hset, hstore]
      rfl
    rw [← hset] at h
    have hcompletes := fun o => endDigit_completes (o := o) d hp h hm hk rfl
    have hopen := endDigit_staysOpen d hp h hm hk rfl
    rw [hdisp, hrecord, hcollected] at hopen
    simp only [hdisp, hrecord, hcollected] at hcompletes
    exact ⟨fun he => hcompletes _ (outcomeAfterDigit_exact he),
      fun he hu => hcompletes _ (outcomeAfterDigit_unmatched he hu),
      fun he hu hc => hcompletes _ (outcomeAfterDigit_full he hu hc),
      fun he hu hc => hopen (outcomeAfterDigit_none he hu hc)⟩

end Sys2Proof.Machine
end

section
/-! SUPPORT. The interdigit threshold (O27). -/

namespace Sys2Proof.Machine

/-! ### The rounding modes in the words of R78 -/

section Rounding

variable {p : Profile} (estimate : Nat)

theorem roundedQuotient_down (h : p.rounding = .down) : roundedQuotient p estimate = p.multiplier * estimate / 128 := by
  simp only [roundedQuotient, h]

theorem roundedQuotient_up (h : p.rounding = .up) : roundedQuotient p estimate =
    if p.multiplier * estimate % 128 = 0 then p.multiplier * estimate / 128 else p.multiplier * estimate / 128 + 1 := by
  simp only [roundedQuotient, h]
  split <;> omega

theorem roundedQuotient_nearest (h : p.rounding = .nearest) : roundedQuotient p estimate =
    if 64 ≤ p.multiplier * estimate % 128 then p.multiplier * estimate / 128 + 1 else p.multiplier * estimate / 128 := by
  simp only [roundedQuotient, h]
  split <;> omega

end Rounding

/-! ### The clamp (R76) -/

section Clamp

variable {p : Profile} {estimate : Nat}

theorem thresholdOf_below (h : roundedQuotient p estimate < p.tidMin) : thresholdOf p estimate = p.tidMin := if_pos h

/-- A quotient that is not below T_id_min is bounded by T_id_max alone. -/
theorem thresholdOf_notBelow (h : p.tidMin ≤ roundedQuotient p estimate) :
    thresholdOf p estimate = min (roundedQuotient p estimate) p.tidMax := if_neg (Nat.not_lt.2 h)

theorem thresholdOf_above (hle : p.tidMin ≤ p.tidMax) (h : p.tidMax < roundedQuotient p estimate) :
    thresholdOf p estimate = p.tidMax :=
  (thresholdOf_notBelow (hle.trans h.le)).trans (Nat.min_eq_right h.le)

theorem thresholdOf_within (h : p.tidMin ≤ roundedQuotient p estimate) (h' : roundedQuotient p estimate ≤ p.tidMax) :
    thresholdOf p estimate = roundedQuotient p estimate :=
  (thresholdOf_notBelow h).trans (Nat.min_eq_left h')

end Clamp

/-- A rounding mode coded 3 fails check 3 (R170). -/
theorem roundingCheck_mem {ws : List Word} (h : byteAt ws 1 / 64 = 3) : (true, 3) ∈ profileChecks ws := by
  simp [profileChecks, h]

theorem checkProfile_tid_le {ws : List Word} {q : Profile} (h : checkProfile ws = .good q) : q.tidMin ≤ q.tidMax := by
  obtain ⟨-, -, -, -, -, -, -, htid, -⟩ := checkProfile_sound h
  exact htid

/-- Settles O27: the quotient mode by mode, then its place against the limits of the clamp. -/
theorem interdigitThreshold : Obligations.InterdigitThreshold := by
  intro p estimate hle product rounded
  have hr : roundedQuotient p estimate = rounded := by
    cases h : p.rounding with
    | down => simpa only [rounded, h] using roundedQuotient_down estimate h
    | up => simpa only [rounded, h] using roundedQuotient_up estimate h
    | nearest => simpa only [rounded, h] using roundedQuotient_nearest estimate h
  rw [← hr]
  refine ⟨thresholdOf_below, thresholdOf_above hle, thresholdOf_within, fun hk he => ?_,
    fun ws hsum h3 => checkProfile_badField hsum (roundingCheck_mem h3) rfl, fun ws q => checkProfile_tid_le,
    fun r period => rfl⟩
  have hproduct : product ≤ 63 * 507904 := Nat.mul_le_mul hk he
  omega

end Sys2Proof.Machine
end

section
/-! SUPPORT. Request rows that touch no more than their own line (O45). -/

namespace Sys2Proof.Machine

/-! ### The request step of a row (R174) -/

section Row

variable {n : LineNo} {e : Byte} {s : State}

/-- The row of a request under the acknowledged edition does nothing, whatever the request would answer. -/
theorem requestRow_old (h : (s.line n).requestEdition = some e) (r : State × RequestOutcome) :
    whenDue s.working s (takeRequest n e s r) = .next s := by
  rw [takeRequest, if_pos h, whenDue, ite_self]

theorem requestRow_new (hw : s.part.phase = .working) (h : (s.line n).requestEdition ≠ some e)
    (r : State × RequestOutcome) : whenDue s.working s (takeRequest n e s r) = .next (acknowledge n e r) := by
  rw [takeRequest_new h, whenDue_true (working_iff.2 hw)]

end Row

/-- The acknowledgement of a request that has set its line's record and nothing else. -/
theorem acknowledge_setLine (n : LineNo) (e : Byte) (s : State) (l : Line) (o : RequestOutcome) :
    acknowledge n e (s.setLine n l, o) = s.setLine n { l with requestEdition := some e, requestOutcome := o } := by
  simp [acknowledge]

/-! ### RESET_SPEED by main state (R70) -/

section ResetSpeed

variable {n : LineNo} {s : State}

theorem doResetSpeed_outOfService (h : (s.line n).main = .outOfService) : doResetSpeed n s = (s, .wrongState) := by
  cases ha : (s.line n).adopted with
  | none => simp only [doResetSpeed, ha]
  | some p => simp only [doResetSpeed, ha, if_pos h]

theorem doResetSpeed_inService {p : Profile} (h : (s.line n).main ≠ .outOfService) (ha : (s.line n).adopted = some p) :
    doResetSpeed n s = (s.setLine n { s.line n with estimate := 16 * p.pNom }, .done) := by
  simp only [doResetSpeed, ha, if_neg h]

end ResetSpeed

/-- Settles O45: a row of the old edition is no step; one of a new edition sets its own line's record and no more. -/
theorem quietRequestRows : Obligations.QuietRequestRows := by
  refine ⟨fun n e s hold => ?_, ?_⟩
  · have row := requestRow_old hold
    refine ⟨?_, fun count keys => row _, fun code => row _⟩
    simp only [List.forall_mem_cons]
    exact ⟨row _, row _, row _, row _, row _, row _, row _, row _, List.forall_mem_nil _⟩
  · intro n e s hw hnew answered l
    have row := requestRow_new hw hnew
    refine ⟨row _, fun code => row _, ?_, fun hout => ?_, fun p hin ha => ?_⟩
    · exact (row _).trans (congrArg _ (acknowledge_setLine n e s _ _))
    · refine (row _).trans ?_
      rw [doResetSpeed_outOfService hout]
      rfl
    · refine (row _).trans ?_
      rw [doResetSpeed_inService hin ha, acknowledge_setLine]

end Sys2Proof.Machine
end

section
/-! SUPPORT. The law of the buffers (R97, R120, R192) through every operation (O53): the bounds of staging and of the gap
count, and for each line those of its key store and its call digits. -/

namespace Sys2Proof.Machine

/-! ### The law in its parts -/

/-- What BufferLaws says of one line record. -/
def Line.Buffered (l : Line) : Prop := l.store.length ≤ 32 ∧ l.digits.length < 24

/-- The law is that of staging and that of each line record. -/
theorem bufferLaws_iff (s : State) : BufferLaws s ↔ StagingBounds s.jnl ∧ ∀ n, (s.line n).Buffered := by
  simp only [BufferLaws, StagingBounds, Line.Buffered, and_assoc]

theorem BufferLaws.staging {s : State} (h : BufferLaws s) : StagingBounds s.jnl := ((bufferLaws_iff s).1 h).1

theorem BufferLaws.line {s : State} (h : BufferLaws s) (n : LineNo) : (s.line n).Buffered := ((bufferLaws_iff s).1 h).2 n

theorem Line.Buffered.sameButSender {l l' : Line} (h : l.Buffered) (hs : SameButSender l l') : l'.Buffered := by
  rw [hs]
  exact h

/-- An offer takes no more keys than there is room for (R121). -/
theorem Line.Buffered.offer {l : Line} (h : l.Buffered) (ks : List StoredKey) :
    ({ l with store := offer ks l.store } : Line).Buffered := ⟨offer_length ks l.store h.1, h.2⟩

theorem StagingBounds.stages {j : JournalUnit} (h : StagingBounds j) (rs : List Record) :
    StagingBounds (rs.foldl JournalUnit.stage j) := by
  induction rs generalizing j with
  | nil => exact h
  | cons r rest ih => exact ih (h.stage r)

theorem Recorded.staging {rs : List Record} {s t : State} (h : Recorded rs s t) (hs : StagingBounds s.jnl) :
    StagingBounds t.jnl := by
  rw [h.1]
  exact hs.stages rs

/-! ### Changes that keep the law -/

/-- Nothing but the line records and the Journal Unit enters the law. -/
theorem BufferLaws.of_lines {s t : State} (h : BufferLaws s) (hl : t.lines = s.lines) (hj : StagingBounds t.jnl) :
    BufferLaws t := (bufferLaws_iff t).2 ⟨hj, fun n => by
  rw [line_congr hl n]
  exact h.line n⟩

theorem BufferLaws.rest {s t : State} (h : BufferLaws s) (hl : t.lines = s.lines := by rfl)
    (hj : t.jnl = s.jnl := by rfl) : BufferLaws t := h.of_lines hl (hj ▸ h.staging)

/-- An event of line n that hands records over keeps the law when line n meets it afterwards. -/
theorem BufferLaws.of_event {n : LineNo} {rs : List Record} {s t : State} (h : BufferLaws s)
    (ho : OtherLinesSameButSenders n s t) (hr : Recorded rs s t) (hn : (t.line n).Buffered) : BufferLaws t :=
  (bufferLaws_iff t).2 ⟨hr.staging h.staging, fun m => by
    by_cases hm : m = n
    · exact hm ▸ hn
    · exact (h.line m).sameButSender (ho m hm)⟩

theorem BufferLaws.of_records {n : LineNo} {rs : List Record} {s t : State} (h : BufferLaws s) (ht : LineRecords n rs s t)
    (hn : (t.line n).Buffered) : BufferLaws t := h.of_event ht.1.2 ht.2 hn

/-- An operation of the pool keeps the law. -/
theorem BufferLaws.of_pool {s t : State} (h : BufferLaws s) (ht : PoolEvent s t) : BufferLaws t :=
  h.of_records (ht.records 0) ((h.line 0).sameButSender (ht.2.1 0))

theorem BufferLaws.setLine {n : LineNo} {s : State} {l : Line} (h : BufferLaws s) (hl : l.Buffered) :
    BufferLaws (s.setLine n l) := h.of_records (setLine_records n s l) (by simpa using hl)

/-- A change of a line record that leaves its store and its call digits. -/
theorem BufferLaws.setSame {n : LineNo} {s : State} {l : Line} (h : BufferLaws s)
    (hk : l.store = (s.line n).store := by rfl) (hd : l.digits = (s.line n).digits := by rfl) :
    BufferLaws (s.setLine n l) := h.setLine (by
  unfold Line.Buffered
  rw [hk, hd]
  exact h.line n)

theorem BufferLaws.handOver {s : State} (h : BufferLaws s) (r : Record) : BufferLaws (handOver r s) :=
  h.of_lines (handOver_lines r s) ((handOver_recorded r s).staging h.staging)

theorem BufferLaws.joinTest {s : State} (h : BufferLaws s) (n : LineNo) : BufferLaws (joinTest n s) :=
  h.of_pool (joinTest_event n s)

theorem BufferLaws.arbitrate {s : State} (h : BufferLaws s) (b : Bool) : BufferLaws (arbitrate b s) :=
  h.of_pool (arbitrate_event b s)

/-! ### Condition sets, adoptions, releases and completions -/

/-- A suspended line keeps its keys and its call digits (R27). -/
theorem BufferLaws.suspendLine {s : State} (h : BufferLaws s) (n : LineNo) (set : CondSet) (target : ResumeTarget)
    (prior : MainState) (d : DevTime) : BufferLaws (suspendLine n set target prior d s) := by
  obtain ⟨hr, hl, -⟩ := suspendLine_spec n set target prior d s
  refine h.of_records hr ?_
  rw [hl]
  exact h.line n

theorem BufferLaws.raiseSet {s : State} (h : BufferLaws s) (n : LineNo) (b : Bool) (set : CondSet) (d : DevTime) :
    BufferLaws (raiseSet n b set d s) := by
  have h1 : BufferLaws (s.setLine n ((s.line n).applySet b set)) := h.setSame
  simp only [Machine.raiseSet]
  split
  · exact h1.suspendLine n set _ _ d
  · exact h1

theorem Line.Buffered.adopt {l : Line} (h : l.Buffered) (p : Profile) : (l.adopt p).Buffered := by
  simp only [Line.adopt]
  split <;> exact h

theorem Line.Buffered.pendingAdopted {l : Line} (h : l.Buffered) : (pendingAdopted l).Buffered := by
  unfold Machine.pendingAdopted
  split
  · exact h.adopt _
  · exact h

theorem BufferLaws.adoptPending {s : State} (h : BufferLaws s) (n : LineNo) (d : DevTime) :
    BufferLaws (adoptPending n d s) := by
  obtain ⟨hr, hl, -⟩ := adoptPending_frame n d s
  refine h.of_records hr ?_
  rw [hl]
  exact (h.line n).pendingAdopted

/-- A released line has neither keys nor call digits (R23). -/
theorem releasedLine_buffered (m : MainState) (l : Line) : (releasedLine m l).Buffered :=
  ⟨Nat.zero_le _, Nat.zero_lt_succ _⟩

theorem BufferLaws.releaseLine {s : State} (h : BufferLaws s) (n : LineNo) (d : DevTime) :
    BufferLaws (releaseLine n d s) := by
  refine h.of_records (releaseLine_spec n d s).1 ?_
  rw [releaseLine_line]
  exact (releasedLine_buffered _ _).pendingAdopted

theorem BufferLaws.enterBlocked {s : State} (h : BufferLaws s) (n : LineNo) (reason : BlockReason) (d : DevTime) :
    BufferLaws (enterBlocked n reason d s) := by
  obtain ⟨hr, hl⟩ := enterBlocked_spec n reason d s
  refine h.of_records hr ?_
  rw [hl]
  refine Line.Buffered.pendingAdopted ?_
  unfold blockedLine
  split
  · exact releasedLine_buffered _ _
  · exact h.line n

theorem BufferLaws.leaveBlocked {s : State} (h : BufferLaws s) (n : LineNo) (reason : BlockReason) (d : DevTime) :
    BufferLaws (leaveBlocked n reason d s) := by
  obtain ⟨hl, ho, -, -, hr⟩ := leaveBlocked_spec n reason d s
  refine h.of_event ho.butSenders hr ?_
  rw [hl]
  exact h.line n

/-- A seizure enters the call without call digits (R21). -/
theorem BufferLaws.enterCollecting {s : State} (h : BufferLaws s) (n : LineNo) (d : DevTime) :
    BufferLaws (enterCollecting n d s) :=
  (h.setLine (n := n) (l := (s.line n).seize) ⟨(h.line n).1, Nat.zero_lt_succ _⟩).handOver _

theorem BufferLaws.offerTo {s : State} (h : BufferLaws s) (n : LineNo) (ks : List StoredKey) :
    BufferLaws (offerTo n ks s) := h.setLine ((h.line n).offer ks)

/-- A completed number has no call digits left, and its store takes only the keys there is room for (R25, R112). -/
theorem completedLine_buffered (p : Profile) (o : NumberOutcome) (ev : Evaluation) {l : Line} (h : l.store.length ≤ 32) :
    (completedLine p o ev l).Buffered := by
  simp only [completedLine]
  split <;> exact ⟨offer_length _ _ h, Nat.zero_lt_succ _⟩

/-- A class raise and then a completion (R105, R111). -/
theorem BufferLaws.completeNumber {s : State} (h : BufferLaws s) (n : LineNo) (p : Profile) (o : NumberOutcome)
    (ev : Evaluation) (d : DevTime) : BufferLaws (completeNumber n p o ev d (raiseClass n ev s)) := by
  obtain ⟨hr, hl⟩ := completeNumber_spec n p o ev d (raiseClass n ev s)
  refine h.of_records ((raiseClass_records n ev s).trans hr) (Line.Buffered.sameButSender ?_ hl)
  refine completedLine_buffered p o ev ?_
  rw [raiseClass_raised]
  exact (h.line n).1

/-! ### The digit end (R56, R97, R106 to R108) -/

theorem outcomeAfterDigit_none_lt {action : UnmatchedAction} {ev : Evaluation} {c : Nat}
    (h : outcomeAfterDigit action ev c = none) : c < 24 := by
  unfold outcomeAfterDigit at h
  split at h
  · cases h
  · split at h
    · cases h
    · split at h
      · cases h
      · rename_i hc
        exact Nat.not_le.1 hc

/-- A number that the evaluation leaves open has room for one more digit; a completed one has none left (R97, R108). -/
theorem endDigit_buffered {n : LineNo} {p : Profile} {s : State} (d : DevTime) (hp : (s.line n).adopted = some p)
    (hd : (s.line n).main = .collecting ∨ (s.line n).main = .through) (h : (s.line n).Buffered) :
    ((endDigit n p d s).line n).Buffered ∧ ∃ rs, Recorded rs s (endDigit n p d s) := by
  have hstore : ((s.line n).digitTaken p).store.length ≤ 32 := by
    obtain ⟨-, -, -, hkeys⟩ := digitTaken_frame p (s.line n)
    rw [hkeys]
    exact offer_length _ _ h.1
  by_cases hset : (s.line n).digitEndSet p &&& p.trapMask = 0
  · by_cases hnot : (s.line n).main = .through ∨ (s.line n).dialled p = none
    · obtain ⟨hl, -, hr⟩ := endDigit_notCollected d hp hset hd hnot
      refine ⟨Line.Buffered.sameButSender ⟨hstore, ?_⟩ hl, _, hr⟩
      rw [digitTaken_notCollected hnot]
      exact h.2
    · obtain ⟨hm, hk⟩ := not_or.1 hnot
      have hm : (s.line n).main = .collecting := hd.resolve_right hm
      obtain ⟨k, hk⟩ := Option.ne_none_iff_exists'.1 hk
      cases ho : outcomeAfterDigit p.unmatchedAction (evaluate s.plan.table ((s.line n).digits ++ [k]))
          ((s.line n).digits.length + 1) with
      | some o =>
        obtain ⟨hl, -, hr⟩ := endDigit_completes d hp hset hm hk rfl ho
        refine ⟨Line.Buffered.sameButSender ?_ hl, _, hr⟩
        rw [← completedLine_raised o _ (by rw [digitTaken_collected hp hm hk]; exact hp)]
        exact completedLine_buffered p o _ hstore
      | none =>
        obtain ⟨hl, -, hr⟩ := endDigit_staysOpen d hp hset hm hk rfl ho
        have hc : ((s.line n).digitTaken p).digits.length < 24 := by
          rw [digitTaken_collected hp hm hk]
          simpa using outcomeAfterDigit_none_lt ho
        refine ⟨Line.Buffered.sameButSender ?_ hl, _, hr⟩
        exact ⟨hstore, hc⟩
  · obtain ⟨hl, -, -, hr⟩ := endDigit_trapped d hp hset
    rw [hl]
    exact ⟨h, _, hr⟩

theorem BufferLaws.endDigit {n : LineNo} {p : Profile} {s : State} (h : BufferLaws s) (d : DevTime)
    (hp : (s.line n).adopted = some p) (hd : (s.line n).main = .collecting ∨ (s.line n).main = .through) :
    BufferLaws (endDigit n p d s) := by
  obtain ⟨hn, rs, hr⟩ := endDigit_buffered d hp hd (h.line n)
  exact h.of_event (dialEvent_endDigit p d (by simp [hp])).event.2 hr hn

/-! ### The events of a sample (R20, R26, R41 to R64) -/

theorem BufferLaws.seizeLine {s : State} (h : BufferLaws s) (n : LineNo) (p : Profile) (d : DevTime) :
    BufferLaws (seizeLine n p d s) := by
  have h1 : BufferLaws (s.setLine n { s.line n with main := .seizing, intervalTimer := 0 }) := h.setSame
  simp only [Machine.seizeLine]
  split
  · exact h1.enterCollecting n d
  · exact h1

theorem BufferLaws.breakStart {s : State} (h : BufferLaws s) (n : LineNo) (p : Profile) (marg : CondSet) (d : DevTime) :
    BufferLaws (breakStart n p marg d s) := by
  have hcand : BufferLaws (candidateBreak n s) := h.setSame
  simp only [Machine.breakStart]
  split
  · exact h.setSame.adoptPending n d
  · split
    · split
      · exact hcand
      · exact hcand
      · split
        · exact h.setSame.raiseSet n true marg d
        · exact h.setSame.raiseSet n true _ d
    · exact h.setSame

theorem BufferLaws.breakGlitch {s : State} (h : BufferLaws s) (n : LineNo) (marg : CondSet) (d : DevTime) :
    BufferLaws (breakGlitch n marg d s) := by
  simp only [Machine.breakGlitch]
  split
  · exact h.setSame
  · exact h.setSame
  · exact h.setSame.raiseSet n true _ d

/-- A flash may start the call anew, without call digits (R26). -/
theorem Line.Buffered.flashRestart {l : Line} (h : l.Buffered) (p : Profile) : (l.flashRestart p).Buffered := by
  unfold Line.flashRestart
  split
  · exact ⟨h.1, Nat.zero_lt_succ _⟩
  · exact h

theorem BufferLaws.takeFlash {s : State} (h : BufferLaws s) (n : LineNo) (p : Profile) (d : DevTime) :
    BufferLaws (takeFlash n p d s) := by
  unfold Machine.takeFlash
  extract_lets l full set s1 s2
  have h1 : BufferLaws s1 := h.setSame
  split
  · exact (h1.handOver _).suspendLine n set _ _ d
  · have h2 : BufferLaws (s1.setLine n ((s1.line n).flashRestart p)) := h1.setLine ((h1.line n).flashRestart p)
    exact ((h2.offerTo n _).handOver _).joinTest n

theorem BufferLaws.endBreakIdle {s : State} (h : BufferLaws s) (n : LineNo) (p : Profile) (b : Nat) (d : DevTime) :
    BufferLaws (endBreakIdle n p b d s) := by
  unfold Machine.endBreakIdle
  split
  · exact h.setSame
  · split
    · exact h.takeFlash n p d
    · exact h.setSame.raiseSet n false _ d

theorem BufferLaws.endBreakInTrain {s : State} (h : BufferLaws s) (n : LineNo) (p : Profile) (b : Nat) (marg : CondSet)
    (d : DevTime) : BufferLaws (endBreakInTrain n p b marg d s) := by
  unfold Machine.endBreakInTrain
  split
  · exact h.setSame.raiseSet n true _ d
  · split
    · exact h.setSame.raiseSet n true _ d
    · exact h.setSame.raiseSet n true _ d

theorem BufferLaws.endBreakSuspended {s : State} (h : BufferLaws s) (n : LineNo) (p : Profile) (b : Nat) (d : DevTime) :
    BufferLaws (endBreakSuspended n p b d s) := by
  unfold Machine.endBreakSuspended
  split
  · exact h.setSame.handOver _
  · exact h.setSame

theorem BufferLaws.makeStart {s : State} (h : BufferLaws s) (n : LineNo) (p : Profile) (marg : CondSet) (d : DevTime) :
    BufferLaws (makeStart n p marg d s) := by
  simp only [Machine.makeStart]
  split
  · exact h.seizeLine n p d
  · split
    · split
      · exact h.breakGlitch n marg d
      · split
        · exact h.endBreakSuspended n p _ d
        · split
          · exact h.endBreakIdle n p _ d
          · exact h.endBreakIdle n p _ d
          · exact h.endBreakInTrain n p _ marg d
    · exact h.setSame

theorem BufferLaws.conditioningSample {s : State} (h : BufferLaws s) (n : LineNo) (p : Profile) (code : LoopCode)
    (d : DevTime) : BufferLaws (conditioningSample n p code d s) := by
  have h1 : BufferLaws (s.setLine n ((s.line n).conditioned p code)) := h.setSame
  cases ht : (conditionLine p code (s.line n)).2 with
  | makeStart =>
    rw [conditioningSample_makeStart d ht]
    exact h1.makeStart n p _ d
  | breakStart =>
    rw [conditioningSample_breakStart d ht]
    exact h1.breakStart n p _ d
  | none =>
    rw [conditioningSample_quiet d ht]
    exact h1.raiseSet n true _ d

theorem BufferLaws.sampleLine {s : State} (h : BufferLaws s) (code : LoopCode) (n : LineNo) (d : DevTime) :
    BufferLaws (sampleLine code n d s) := by
  rcases sampleLine_cases code n d s with he | he | he | ⟨p, -, he⟩ <;> rw [he]
  · exact h
  · refine h.setLine ?_
    unfold Line.clearSample
    split <;> exact h.line n
  · exact h.setSame
  · exact h.conditioningSample n p code d

theorem BufferLaws.sampleLines {s : State} (h : BufferLaws s) (frame : BitVec 192) (d : DevTime) (ns : List LineNo) :
    BufferLaws (sampleLines frame d ns s) := by
  induction ns generalizing s with
  | nil => exact h
  | cons n rest ih => exact ih (h.sampleLine _ n d)

end Sys2Proof.Machine
end

section
/-! SUPPORT. Staging through the commands that reach no line record, and with it the law of the buffers through every command
(O53). -/

namespace Sys2Proof.Machine

/-! ### Staging through the commands that reach no line record -/

/-- A step that may be due, under which staging keeps its bounds. -/
theorem whenDue_staging {due : Bool} {s t u : State} (h : whenDue due s t = .next u) (hs : StagingBounds s.jnl)
    (ht : StagingBounds t.jnl) : StagingBounds u.jnl :=
  whenDue_keeps (P := fun x => StagingBounds x.jnl) h hs fun _ => ht

@[simp] theorem beginBurst_jnl (k : SenderNo) (n : LineNo) (s : State) : (beginBurst k n s).jnl = s.jnl := by
  simp only [beginBurst]
  split <;> rfl

@[simp] theorem recompose_jnl (moved : LineNo → Bool) (s : State) : (recompose moved s).jnl = s.jnl := by
  unfold recompose
  split <;> rfl

@[simp] theorem takeBurstExpiry_jnl (k : SenderNo) (s : State) : (takeBurstExpiry k s).jnl = s.jnl := by
  unfold takeBurstExpiry
  split
  · split
    · simp
    · rfl
  · rfl

@[simp] theorem endSequence_jnl (s : State) : (endSequence s).jnl = s.jnl := by
  obtain ⟨-, -, -, hj, -⟩ := endSequence_spec s
  exact hj

@[simp] theorem readDone_jnl (data : Word) (q : Sequence) (s : State) : (readDone data q s).jnl = s.jnl := by
  obtain ⟨-, -, -, hj, -⟩ := readDone_spec data q s
  exact hj

theorem changeClock_staging {s : State} (h : StagingBounds s.jnl) (st : ClockState) :
    StagingBounds (changeClock st s).jnl := by
  obtain ⟨-, hr, -⟩ := changeClock_spec st s
  exact hr.staging h

theorem haltPort_staging {s : State} (h : StagingBounds s.jnl) : StagingBounds (haltPort s).jnl := by
  unfold haltPort enterHalting
  split
  · exact h
  · simp only
    split <;> exact h
  · exact h
  · exact h
  · exact h

/-- A release index taken up leaves staging (R196). -/
theorem StagingBounds.takeRelease {j : JournalUnit} (h : StagingBounds j) (r : Nat) : StagingBounds (j.takeRelease r) := by
  unfold JournalUnit.takeRelease
  split <;> exact h

theorem planOutcome_staging {s : State} (h : StagingBounds s.jnl) (edition : Byte) (got : List Word) :
    StagingBounds (planOutcome edition got s).jnl := by
  simp only [planOutcome, handOver_jnl]
  split <;> exact StagingBounds.stage h _

theorem readRelease_staging {s : State} (h : StagingBounds s.jnl) (r : Nat) (q : Sequence) :
    StagingBounds (readRelease r q s).jnl := by
  have htake := h.takeRelease r
  have hroom : StagingBounds (if (s.jnl.takeRelease r).room = 0
      then { s.jnl.takeRelease r with holdOff := true, holdOffDue := false } else s.jnl.takeRelease r) := by
    split <;> exact htake
  simp only [readRelease]
  split
  · rw [endSequence_jnl]
    exact hroom
  · exact hroom

/-- These commands keep the bounds of staging: most leave the Journal Unit, some hand a record over, and a commit takes
records from the head (R192, R193). -/
theorem exec_staging {i : Instr} {s t : State} (hi : keepsLines i = true) (hs : StagingBounds s.jnl)
    (h : exec i s = .next t) : StagingBounds t.jnl := by
  cases i
  case timeRollover => exact whenDue_staging (show execTimeRollover s = .next t from h) hs hs
  case lineSlotReceived c v => exact whenDue_staging (show execLineSlotReceived c v s = .next t from h) hs hs
  case busTimeout => exact whenDue_staging (show execBusTimeout s = .next t from h) hs hs
  case run => exact whenDue_staging (show execRun s = .next t from h) hs hs
  case clearFault => exact whenDue_staging (show execClearFault s = .next t from h) hs hs
  case areaBaseWrite v => exact whenDue_staging (show execAreaBaseWrite v s = .next t from h) hs hs
  case statusWrite v => exact whenDue_staging (show execStatusWrite v s = .next t from h) hs hs
  case attentionWrite v => exact whenDue_staging (show execAttentionWrite v s = .next t from h) hs hs
  case halt => exact whenDue_staging (show execHalt s = .next t from h) hs (haltPort_staging hs)
  case qualifyTimeout =>
    refine whenDue_staging (show execQualifyTimeout s = .next t from h) hs (changeClock_staging ?_ _)
    exact hs
  case holdOffClear =>
    refine whenDue_staging (show execHoldOffClear s = .next t from h) hs ?_
    rw [requestJournal_jnl]
    exact hs
  case burstExpiry k => cases h; rwa [takeBurstExpiry_jnl]
  case ignoredCommand | resetNReturnsHigh | supplyInOperatingRange => cases h; exact hs
  case dividerWindowClose | sequenceStart | busGrant | busError =>
    simp only [exec, execDividerWindowClose, execSequenceStart, execBusGrant, execBusError] at h
    split at h
    · exact whenDue_staging h hs hs
    · cases h; exact hs
  case burstStart k =>
    simp only [exec, execBurstStart] at h
    split at h
    · exact whenDue_staging h hs (by rwa [beginBurst_jnl])
    · cases h; exact hs
  case headerVisitComplete =>
    simp only [exec, execHeaderVisitComplete] at h
    split at h
    · exact whenDue_staging h hs (by rw [endSequence_jnl]; exact hs)
    · cases h; exact hs
  case visitComplete =>
    simp only [exec, execVisitComplete] at h
    split at h
    · split at h
      · exact whenDue_staging h hs (by rw [visitDone, endSequence_jnl]; exact hs)
      all_goals cases h; exact hs
    · cases h; exact hs
  case journalCommit =>
    simp only [exec, execJournalCommit] at h
    split at h
    · refine whenDue_staging h hs ?_
      rw [endSequence_jnl]
      exact hs.unstage _ _
    · cases h; exact hs
  case planLoadOutcome =>
    simp only [exec, execPlanLoadOutcome] at h
    split at h
    · exact whenDue_staging h hs (planOutcome_staging hs _ _)
    · cases h; exact hs
  case releaseRead =>
    simp only [exec, execReleaseRead] at h
    split at h
    · exact whenDue_staging h hs (readRelease_staging hs _ _)
    · cases h; exact hs
  case transferDone data =>
    simp only [exec, execTransferDone] at h
    split at h
    · refine whenDue_staging h hs ?_
      split
      · exact hs
      · rw [readDone_jnl]
        exact hs
    · cases h; exact hs
  case headerTakeUp =>
    simp only [exec, execHeaderTakeUp] at h
    split at h
    · refine whenDue_staging h hs ?_
      split <;> exact hs.takeRelease _
    · cases h; exact hs
  case headerCheck =>
    simp only [exec, execHeaderCheck] at h
    split at h
    · refine whenDue_staging h hs ?_
      split
      · exact hs
      · split
        · rw [enterRunning, endSequence_jnl]
          exact hs
        · exact hs
    · cases h; exact hs
  all_goals cases hi

/-! ### Tick boundaries, frames and the senders' expiries -/

theorem BufferLaws.tickTaken {s t : State} (h : BufferLaws s) (ht : TickTaken s t) : BufferLaws t := by
  obtain ⟨-, -, hl, -, -, -, hj, -⟩ := ht
  refine (bufferLaws_iff t).2 ⟨?_, fun n => ?_⟩
  · rw [hj]
    exact h.staging
  · rw [hl n]
    exact h.line n

theorem BufferLaws.startFrame {s : State} (h : BufferLaws s) : BufferLaws (startFrame s) := by
  by_cases hf : (s.clk.frame + 1) % 4 = 0
  · exact h.tickTaken (startFrame_boundary s hf).1
  · obtain ⟨⟨hl, -, -, hj, -⟩, -⟩ := startFrame_inside s hf
    exact h.rest hl hj

/-- A frame start of a state with the same line records and Journal Unit. -/
theorem BufferLaws.startFrame_of {s t : State} (h : BufferLaws s) (hl : t.lines = s.lines) (hj : t.jnl = s.jnl) :
    BufferLaws (Machine.startFrame t) := (h.rest hl hj).startFrame

theorem BufferLaws.changeClock {s : State} (h : BufferLaws s) (st : ClockState) : BufferLaws (changeClock st s) :=
  h.of_lines (changeClock_lines st s) (changeClock_staging h.staging st)

theorem BufferLaws.takeEdge {s : State} (h : BufferLaws s) : BufferLaws (takeEdge s) := by
  have hsame : ∀ c : Clock, BufferLaws { s with clk := c } := fun _ => h.rest
  unfold Machine.takeEdge
  split
  · exact (hsame _).changeClock .qualifying
  · exact (hsame _).changeClock .qualifying
  · simp only [qualifyEdge]
    split
    · split
      · have h1 := BufferLaws.changeClock (s := { Machine.startFrame s with clk := (Machine.startFrame s).clk.lockMarks })
          h.startFrame.rest .locked
        exact h1.rest
      · exact hsame _
    · exact hsame _
  · unfold lockedEdge
    split
    · exact h
    · have h1 : BufferLaws (nextLockedFrame 0 s) := h.startFrame_of rfl rfl
      exact h1.rest

theorem BufferLaws.freeSender {s : State} (h : BufferLaws s) (k : SenderNo) (n : LineNo) (reason : SendReason)
    (d : DevTime) : BufferLaws (freeSender k n reason d s) := by
  obtain ⟨-, hl, hr, -⟩ := freeSender_spec k n reason d s
  exact h.of_event (hl.others n) hr ((h.line n).sameButSender (hl n))

/-- A gap expiry takes one key from its line's store, unless the burst is sent again (R135, R141). -/
theorem BufferLaws.expireGap {s : State} (h : BufferLaws s) (k : SenderNo) (n : LineNo) : BufferLaws (expireGap k n s) := by
  simp only [Machine.expireGap]
  split
  · exact h.rest (beginBurst_lines k n _) (beginBurst_jnl k n _)
  · have h1 : BufferLaws ((s.setSender k { s.sender k with keysSent := bump (s.sender k).keysSent }).setLine n
        { s.line n with store := (s.line n).store.drop 1 }) :=
      BufferLaws.setLine (s := s.setSender k _) h.rest
        ⟨(List.drop_sublist 1 _).length_le.trans (h.line n).1, (h.line n).2⟩
    split
    · have h2 := (h1.freeSender k n (emptyReason (s.sender k).flushMark) s.now).arbitrate true
      exact h2.rest (recompose_lines _ _) (recompose_jnl _ _)
    · exact h1.rest (beginBurst_lines k n _) (beginBurst_jnl k n _)

theorem BufferLaws.takeGapExpiry {s : State} (h : BufferLaws s) (k : SenderNo) : BufferLaws (takeGapExpiry k s) := by
  unfold Machine.takeGapExpiry
  split
  · split
    · exact h.expireGap k _
    · exact h
  · exact h

theorem BufferLaws.takeAllExpiries {s : State} (h : BufferLaws s) (ks : List SenderNo) :
    BufferLaws (takeAllExpiries ks s) := by
  induction ks generalizing s with
  | nil => exact h
  | cons k rest ih =>
    refine ih (BufferLaws.takeGapExpiry (s := takeBurstExpiry k s) ?_ k)
    exact h.rest (takeBurstExpiry_lines k s) (takeBurstExpiry_jnl k s)

theorem BufferLaws.filledFrame {s t : State} (h : BufferLaws s) (he : execFilledFrame s = .next t) : BufferLaws t := by
  refine whenDue_keeps he h fun _ => ?_
  have h1 : BufferLaws (nextLockedFrame (s.clk.missing + 1) { s with clk := s.clk.passTo Config.maxSpacing }) :=
    h.startFrame_of rfl rfl
  split
  · have h2 : BufferLaws (expiriesBeforeLoss
        (nextLockedFrame (s.clk.missing + 1) { s with clk := s.clk.passTo Config.maxSpacing })) := by
      unfold expiriesBeforeLoss
      split
      · exact h1.takeAllExpiries _
      · exact h1
    refine BufferLaws.changeClock ?_ .holdover
    exact h2.rest
  · exact h1.rest

/-! ### The expiries of a line -/

theorem BufferLaws.interdigitExpiry {n : LineNo} {s t : State} (h : BufferLaws s)
    (he : execInterdigitExpiry n s = .next t) : BufferLaws t := by
  unfold execInterdigitExpiry at he
  split at he
  · rename_i p hp
    refine whenDue_keeps he h fun hd => h.endDigit _ hp ?_
    have hi : (s.line n).interdigitDue = true := (Bool.and_eq_true_iff.1 hd).2
    unfold Line.interdigitDue at hi
    split at hi
    · simp only [Bool.and_eq_true] at hi
      exact dialling_iff.1 hi.1.1
    · cases hi
  · cases he
    exact h

theorem BufferLaws.completionTimerExpiry {n : LineNo} {s t : State} (h : BufferLaws s)
    (he : execCompletionTimerExpiry n s = .next t) : BufferLaws t := by
  unfold execCompletionTimerExpiry at he
  split at he
  · exact whenDue_keeps he h fun _ => h.completeNumber n _ _ _ _
  · cases he
    exact h

/-! ### The request step and the take-up (R164 to R175) -/

/-- Keys are offered whole or in part, or taken away, by a request (R122, R124). -/
theorem BufferLaws.inject {s : State} (h : BufferLaws s) (n : LineNo) (count : Nat) (keys : Word) :
    BufferLaws (doInject n count keys s).1 := by
  simp only [doInject]
  split
  · exact (h.offerTo n _).joinTest n
  · exact h

theorem BufferLaws.flush {s : State} (h : BufferLaws s) (n : LineNo) : BufferLaws (doFlush n s).1 := by
  have hstore : ∀ ks : List StoredKey, ks.length ≤ 32 → BufferLaws (s.setLine n { s.line n with store := ks }) :=
    fun ks hk => h.setLine ⟨hk, (h.line n).2⟩
  simp only [doFlush]
  split
  · split
    · exact h
    · split
      · have h1 := hstore ((s.line n).store.take 1) ((List.length_take_le ..).trans (by omega))
        exact h1.rest
      · exact (hstore [] (Nat.zero_le _)).of_pool (leaveWait_event n _)
  · exact h

theorem BufferLaws.endNumber {s : State} (h : BufferLaws s) (n : LineNo) (d : DevTime) :
    BufferLaws (doEndNumber n d s).1 := by
  simp only [doEndNumber]
  split
  · split
    · exact h.completeNumber n _ _ _ d
    · exact h
  · exact h

theorem Line.Buffered.resumeTo {l : Line} (h : l.Buffered) (t : ResumeTarget) : (l.resumeTo t).Buffered := by
  unfold Line.resumeTo
  cases t with
  | collecting =>
    simp only
    split <;> exact h
  | through => exact h

theorem BufferLaws.resume {s : State} (h : BufferLaws s) (n : LineNo) : BufferLaws (doResume n s).1 := by
  simp only [doResume]
  split
  · split
    · exact (h.setLine ((h.line n).resumeTo _)).joinTest n
    · exact h
  · exact h

theorem BufferLaws.block {s : State} (h : BufferLaws s) (n : LineNo) (d : DevTime) : BufferLaws (doBlock n d s).1 := by
  unfold doBlock
  split
  · exact h
  · exact h
  all_goals exact h.enterBlocked n .admin d

theorem BufferLaws.unblock {s : State} (h : BufferLaws s) (n : LineNo) (d : DevTime) : BufferLaws (doUnblock n d s).1 := by
  unfold doUnblock
  split
  · exact h.leaveBlocked n .admin d
  · exact h

theorem BufferLaws.resetSpeed {s : State} (h : BufferLaws s) (n : LineNo) : BufferLaws (doResetSpeed n s).1 := by
  simp only [doResetSpeed]
  split
  · split
    · exact h
    · exact h.setSame
  · exact h

theorem BufferLaws.clearFlags {s : State} (h : BufferLaws s) (n : LineNo) : BufferLaws (doClearFlags n s).1 := h.setSame

theorem BufferLaws.request {s : State} (h : BufferLaws s) (code count : Nat) (keys : Word) (n : LineNo) (d : DevTime) :
    BufferLaws (doRequest code count keys n d s).1 := by
  unfold doRequest
  split_ifs
  · exact h
  · exact h.inject n count keys
  · exact h.flush n
  · exact h.endNumber n d
  · exact h.resume n
  · exact h.clearFlags n
  · exact h.block n d
  · exact h.unblock n d
  · exact h.resetSpeed n
  · exact h

theorem BufferLaws.takeRequest {s : State} (h : BufferLaws s) (n : LineNo) (edition : Byte) {r : State × RequestOutcome}
    (hr : BufferLaws r.1) : BufferLaws (takeRequest n edition s r) := by
  unfold Machine.takeRequest acknowledge
  split
  · exact h
  · exact hr.setSame

theorem Line.Buffered.profileTaken {l : Line} (h : l.Buffered) (edition : Byte) (ws : List Word) :
    (l.profileTaken edition ws).Buffered := by
  unfold Line.profileTaken
  split
  · exact h
  · exact h
  · simp only [Line.takeProfile]
    split
    · exact h
    · exact Line.Buffered.adopt (l := { l with profileEdition := some edition }) h _

theorem BufferLaws.takeUp {s : State} (h : BufferLaws s) (n : LineNo) (got : List Word) (d : DevTime) :
    BufferLaws (takeUp n got d s) := by
  have h1 : BufferLaws (profileStep n (byteOf (got.getD 0 0) 0) (got.drop 2) d s) := by
    simp only [profileStep]
    split
    · exact h
    · exact (h.setLine ((h.line n).profileTaken _ _)).handOver _
  exact h1.takeRequest n _ (h1.request _ _ _ n d)

theorem BufferLaws.lineTakeUp {now : Bool} {s t : State} (h : BufferLaws s) (he : execLineTakeUp now s = .next t) :
    BufferLaws t := by
  unfold execLineTakeUp at he
  split at he
  · rename_i q hq
    split at he
    · rename_i n hn
      have h1 := h.takeUp n q.got s.now
      exact whenDue_keeps he h fun _ => h1.rest
    all_goals
      cases he
      exact h
  · cases he
    exact h

/-! ### The law through every command -/

theorem BufferLaws.reset (cause : ResetCause) (part : Part) (s : State) : BufferLaws (resetPart cause part s) :=
  reset_safe.1.rest

/-- A request row keeps the law when its request does (R174). -/
theorem BufferLaws.requested {n : LineNo} {edition : Byte} {due : Bool} {s t : State} {r : State × RequestOutcome}
    (h : BufferLaws s) (he : whenDue due s (Machine.takeRequest n edition s r) = .next t) (hr : BufferLaws r.1) :
    BufferLaws t := whenDue_keeps he h fun _ => h.takeRequest n edition hr

theorem BufferLaws.exec {i : Instr} {s t : State} (h : BufferLaws s) (he : exec i s = .next t) : BufferLaws t := by
  by_cases hi : keepsLines i = true
  · exact h.of_lines (exec_lines hi he) (exec_staging hi h.staging he)
  cases i
  case powerOn => cases he; exact .reset _ _ _
  case pinReset c => exact whenDue_keeps (show execPinReset c s = .next t from he) h fun _ => .reset _ _ _
  case softReset => exact whenDue_keeps (show execSoftReset s = .next t from he) h fun _ => .reset _ _ _
  case startUpHoldEnd =>
    refine whenDue_keeps (show execStartUpHoldEnd s = .next t from he) h fun _ => ?_
    refine BufferLaws.tickTaken ?_ (tickBoundary_spec _).1
    exact h.rest
  case frameStart => exact whenDue_keeps (show execFrameStart s = .next t from he) h fun _ => h.startFrame_of rfl rfl
  case xfsEdge c =>
    exact whenDue_keeps (show execXfsEdge c s = .next t from he) h fun _ =>
      BufferLaws.takeEdge h.rest
  case lockHandoverTimeout =>
    exact whenDue_keeps (show execLockHandoverTimeout s = .next t from he) h fun _ => h.startFrame_of rfl rfl
  case filledFrame => exact h.filledFrame he
  case scanFrameComplete f =>
    refine whenDue_keeps (show execScanFrameComplete f s = .next t from he) h fun _ => ?_
    have h1 : BufferLaws { s with scan := s.scan.finish s.now } := h.rest
    exact h1.sampleLines f _ _
  case guardExpiry n =>
    exact whenDue_keeps (show execGuardExpiry n s = .next t from he) h fun _ => h.enterCollecting n _
  case interdigitExpiry n => exact h.interdigitExpiry he
  case completionTimerExpiry n => exact h.completionTimerExpiry he
  case release n => exact whenDue_keeps (show execRelease n s = .next t from he) h fun _ => h.releaseLine n _
  case faultBlock n =>
    exact whenDue_keeps (show execFaultBlock n s = .next t from he) h fun _ => h.enterBlocked n .fault _
  case faultReturn n =>
    exact whenDue_keeps (show execFaultReturn n s = .next t from he) h fun _ => h.leaveBlocked n .fault _
  case gapExpiry k => cases he; exact h.takeGapExpiry k
  case lineTakeUp now => exact h.lineTakeUp he
  case requestNone n e => exact h.requested (r := doNone s) (show execNone n e s = .next t from he) h
  case inject n e c ks => exact h.requested (show execInject n e c ks s = .next t from he) (h.inject n _ ks)
  case flush n e => exact h.requested (show execFlush n e s = .next t from he) (h.flush n)
  case endNumber n e => exact h.requested (show execEndNumber n e s = .next t from he) (h.endNumber n _)
  case resume n e => exact h.requested (show execResume n e s = .next t from he) (h.resume n)
  case clearFlags n e => exact h.requested (show execClearFlags n e s = .next t from he) (h.clearFlags n)
  case block n e => exact h.requested (show execBlock n e s = .next t from he) (h.block n _)
  case unblock n e => exact h.requested (show execUnblock n e s = .next t from he) (h.unblock n _)
  case resetSpeed n e => exact h.requested (show execResetSpeed n e s = .next t from he) (h.resetSpeed n)
  case unknownRequest n e c =>
    exact h.requested (r := doUnknown s) (show execUnknownRequest n e c s = .next t from he) h
  all_goals exact absurd rfl hi

/-- Settles O53: every command keeps the bounds of staging and those of each line record. -/
theorem bufferLawsKept : Obligations.BufferLawsKept := by
  intro s t h he
  unfold step at he
  split at he
  · rename_i c rest _
    exact BufferLaws.exec (s := { s with pending := rest }) h.rest he
  · cases he
    exact h

end Sys2Proof.Machine
end

section
/-! SUPPORT. The completion timer's expiry (O23). -/

namespace Sys2Proof.Machine

/-- The outcome at the timer's expiry, by whether an entry is selected (R109). -/
theorem outcomeAtExpiry_eq (ev : Evaluation) :
    outcomeAtExpiry ev = if ev.selected = none then .unmatched else .timeout := by
  unfold outcomeAtExpiry
  cases ev.selected <;> rfl

/-- COMPLETION_TIMER_EXPIRY of a line in COLLECTING whose timer has reached T_c, no interdigit expiry and no release due
(R98, R99). -/
theorem completionTimerExpiry_due {n : LineNo} {p : Profile} {elapsed : Nat} {s : State} (hw : s.part.phase = .working)
    (hs : s.scan.tickSampled = true) (hp : (s.line n).adopted = some p) (hm : (s.line n).main = .collecting)
    (ht : (s.line n).completionTimer = some elapsed) (hdue : p.tComplete ≤ elapsed)
    (hi : (s.line n).interdigitDue = false) (hr : (s.line n).releaseDue = false) :
    exec (.completionTimerExpiry n) s = .next (expireCompletion n p s.scan.sampleAt s) := by
  have hc : (s.line n).completionDue = true := by simp [Line.completionDue, hp, ht, hm, hdue, hi, hr]
  show execCompletionTimerExpiry n s = _
  simp only [execCompletionTimerExpiry, hp]
  exact whenDue_true (by simp [working_iff.2 hw, hs, hc]) _ _

/-- Settles O23: the expiry is a class raise and a completion, with the outcome that the evaluation gives. -/
theorem completionTimerCompletes : Obligations.CompletionTimerCompletes := by
  intro n p elapsed s hw hs hp hm ht hdue hi hr ev o
  refine ⟨_, completionTimerExpiry_due hw hs hp hm ht hdue hi hr, ?_⟩
  have ho : outcomeAtExpiry ev = o := outcomeAtExpiry_eq ev
  rw [← ho]
  exact completion_spec _ ev _ hp

end Sys2Proof.Machine
end

section
/-! SUPPORT. The Plan Matcher's evaluation in the words of R104 (O29): agreement, the valid entries by their positions, and
the longest prefix at the lowest position. -/

namespace Sys2Proof.Machine

/-! ### Agreement: live and holding entries -/

/-- The entry agrees with the call digits over the first min(c, prefix length) positions, ANY with every digit (R104). -/
def PlanEntry.Agrees (digits : List Key) (e : PlanEntry) : Prop :=
  ∀ j, j < min digits.length e.prefixKeys.length → ∀ k, e.prefixKeys[j]? = some (some k) → digits[j]? = some k

theorem keyAgrees_iff {q : Option Key} {d : Key} : keyAgrees q d = true ↔ ∀ k, q = some k → d = k := by
  cases q with
  | none => simp [keyAgrees]
  | some c =>
    simp only [keyAgrees, Bool.or_eq_true, beq_iff_eq, reduceCtorEq, false_or, Option.some.injEq, forall_eq']
    exact eq_comm

theorem live_iff {e : PlanEntry} {digits : List Key} : e.live digits = true ↔ e.Agrees digits := by
  simp only [PlanEntry.live, List.all_eq_true, keyAgrees_iff]
  constructor
  · intro h j hj k hk
    obtain ⟨hd, -⟩ := lt_min_iff.1 hj
    have hmem : (some k, digits[j]) ∈ e.prefixKeys.zip digits :=
      List.mem_of_getElem? (List.getElem?_zip_eq_some.2 ⟨hk, List.getElem?_eq_getElem hd⟩)
    rw [List.getElem?_eq_getElem hd]
    exact congrArg some (h _ hmem k rfl)
  · rintro h ⟨q, d⟩ hx k rfl
    obtain ⟨j, hj⟩ := List.mem_iff_getElem?.1 hx
    obtain ⟨hq, hd⟩ := List.getElem?_zip_eq_some.1 hj
    obtain ⟨hq', -⟩ := List.getElem?_eq_some_iff.1 hq
    obtain ⟨hd', -⟩ := List.getElem?_eq_some_iff.1 hd
    exact Option.some.inj (hd.symm.trans (h j (lt_min hd' hq') k hq))

theorem holds_iff {e : PlanEntry} {digits : List Key} :
    e.holds digits = true ↔ e.Agrees digits ∧ e.prefixKeys.length ≤ digits.length := by
  rw [PlanEntry.holds, Bool.and_eq_true, live_iff, decide_eq_true_iff]

/-- Digits that follow those over which an entry holds do not matter to it. -/
theorem PlanEntry.Agrees.append {e : PlanEntry} {digits : List Key} (h : e.Agrees digits)
    (hlen : e.prefixKeys.length ≤ digits.length) (more : List Key) : e.Agrees (digits ++ more) := by
  intro j hj k hk
  obtain ⟨-, hj⟩ := lt_min_iff.1 hj
  rw [List.getElem?_append_left (hj.trans_le hlen)]
  exact h j (lt_min (hj.trans_le hlen) hj) k hk

/-! ### The valid entries by their positions (R100) -/

theorem mem_validFrom {table : List PlanPosition} {k i : Nat} {e : PlanEntry} :
    (i, e) ∈ validFrom k table ↔ ∃ j, i = k + j ∧ table[j]? = some (.valid e) := by
  induction table generalizing k with
  | nil => simp [validFrom]
  | cons pos rest ih =>
    have hsplit : (∃ j, i = k + j ∧ (pos :: rest)[j]? = some (.valid e))
        ↔ i = k ∧ pos = .valid e ∨ ∃ j, i = k + 1 + j ∧ rest[j]? = some (.valid e) := by
      constructor
      · rintro ⟨_ | j, rfl, hj⟩
        · exact .inl ⟨rfl, by simpa using hj⟩
        · exact .inr ⟨j, by omega, by simpa using hj⟩
      · rintro (⟨rfl, rfl⟩ | ⟨j, rfl, hj⟩)
        · exact ⟨0, rfl, rfl⟩
        · exact ⟨j + 1, by omega, by simpa using hj⟩
    rw [hsplit, ← ih]
    cases pos with
    | valid f => simp [validFrom, eq_comm]
    | vacant => simp [validFrom]
    | ignored => simp [validFrom]

theorem mem_valid {table : List PlanPosition} {i : Nat} {e : PlanEntry} :
    (i, e) ∈ validFrom 0 table ↔ table[i]? = some (.valid e) := by
  simp [mem_validFrom]

/-- The valid entries stand in the order of their positions. -/
theorem validFrom_sorted (table : List PlanPosition) (k : Nat) : (validFrom k table).Pairwise (·.1 < ·.1) := by
  induction table generalizing k with
  | nil => exact .nil
  | cons pos rest ih =>
    cases pos with
    | valid f =>
      refine .cons (fun x hx => ?_) (ih (k + 1))
      obtain ⟨j, hj, -⟩ := mem_validFrom.1 hx
      show k < x.1
      omega
    | vacant => exact ih (k + 1)
    | ignored => exact ih (k + 1)

/-! ### The longest prefix, at the lowest position (R104) -/

/-- Entry x precedes entry y: its prefix is longer, or as long at no higher position. -/
def Precedes (x y : Nat × PlanEntry) : Prop :=
  y.2.prefixKeys.length < x.2.prefixKeys.length ∨ y.2.prefixKeys.length = x.2.prefixKeys.length ∧ x.1 ≤ y.1

theorem longest_eq_none {list : List (Nat × PlanEntry)} : longest list = none ↔ list = [] := by
  cases list with
  | nil => simp [longest]
  | cons x rest =>
    simp only [longest, reduceCtorEq, iff_false]
    split
    · split <;> simp
    · simp

/-- The entry chosen is one of the list, and precedes all others. -/
theorem longest_some {list : List (Nat × PlanEntry)} {x : Nat × PlanEntry} (hs : list.Pairwise (·.1 < ·.1))
    (h : longest list = some x) : x ∈ list ∧ ∀ y ∈ list, Precedes x y := by
  induction list generalizing x with
  | nil => cases h
  | cons a rest ih =>
    obtain ⟨ha, hrest⟩ := List.pairwise_cons.1 hs
    rw [longest] at h
    cases hr : longest rest with
    | none =>
      obtain rfl : a = x := by simpa [hr] using h
      obtain rfl := longest_eq_none.1 hr
      simp [Precedes]
    | some b =>
      obtain ⟨hb, hprec⟩ := ih hrest hr
      simp only [hr] at h
      split at h
      · rename_i hlt
        obtain rfl := Option.some.inj h
        refine ⟨List.mem_cons_of_mem _ hb, fun y hy => ?_⟩
        rcases List.mem_cons.1 hy with rfl | hy
        · exact .inl hlt
        · exact hprec y hy
      · rename_i hle
        obtain rfl := Option.some.inj h
        refine ⟨List.mem_cons_self, fun y hy => ?_⟩
        rcases List.mem_cons.1 hy with rfl | hy
        · exact .inr ⟨rfl, le_rfl⟩
        · have hpos := ha y hy
          rcases hprec y hy with hlt | ⟨heq, -⟩
          · exact .inl (by omega)
          · unfold Precedes
            omega

/-! ### The evaluation -/

section Evaluation

variable {table : List PlanPosition} {digits : List Key}

/-- Position i holds a valid entry, which holds for the digits (R104). -/
def HoldsAt (table : List PlanPosition) (digits : List Key) (i : Nat) (e : PlanEntry) : Prop :=
  table[i]? = some (.valid e) ∧ e.Agrees digits ∧ e.prefixKeys.length ≤ digits.length

theorem mem_holding {i : Nat} {e : PlanEntry} :
    (i, e) ∈ (validFrom 0 table).filter (fun x => x.2.holds digits) ↔ HoldsAt table digits i e := by
  rw [List.mem_filter, mem_valid, holds_iff]
  rfl

theorem selectEntry_none : selectEntry table digits = none ↔ ¬ ∃ i e, HoldsAt table digits i e := by
  rw [selectEntry, longest_eq_none, List.eq_nil_iff_forall_not_mem]
  constructor
  · rintro h ⟨i, e, hh⟩
    exact h _ (mem_holding.2 hh)
  · rintro h ⟨i, e⟩ hx
    exact h ⟨i, e, mem_holding.1 hx⟩

/-- The selected entry holds, and precedes every other holding entry. -/
theorem selectEntry_some {x : Nat × PlanEntry} (h : selectEntry table digits = some x) :
    HoldsAt table digits x.1 x.2 ∧ ∀ j f, HoldsAt table digits j f → Precedes x (j, f) := by
  obtain ⟨hx, hprec⟩ := longest_some ((validFrom_sorted table 0).filter _) h
  exact ⟨mem_holding.1 hx, fun j f hf => hprec _ (mem_holding.2 hf)⟩

/-- No two entries precede each other, so the one that precedes all is the one selected. -/
theorem selectEntry_iff {i : Nat} {e : PlanEntry} : selectEntry table digits = some (i, e) ↔
    HoldsAt table digits i e ∧ ∀ j f, HoldsAt table digits j f → Precedes (i, e) (j, f) := by
  refine ⟨selectEntry_some, fun ⟨hh, hprec⟩ => ?_⟩
  cases hs : selectEntry table digits with
  | none => exact absurd ⟨i, e, hh⟩ (selectEntry_none.1 hs)
  | some x =>
    obtain ⟨j, f⟩ := x
    obtain ⟨hf, hfirst⟩ := selectEntry_some hs
    have hto := hfirst i e hh
    have hfrom := hprec j f hf
    obtain rfl : j = i := by
      simp only [Precedes] at hto hfrom
      omega
    have he : some (PlanPosition.valid f) = some (.valid e) := hf.1.symm.trans hh.1
    cases he
    rfl

theorem evaluate_live : (evaluate table digits).live = true ↔
    ∃ (i : Nat) (e : PlanEntry), table[i]? = some (.valid e) ∧ e.Agrees digits := by
  simp only [evaluate, List.any_eq_true, live_iff, Prod.exists, mem_valid]

/-- A live entry that does not yet hold has more prefix keys than there are digits. -/
theorem evaluate_blocked : (evaluate table digits).blocked = true ↔ ∃ (i : Nat) (e : PlanEntry) (j : Nat) (f : PlanEntry),
    (evaluate table digits).selected = some (i, e) ∧ table[j]? = some (.valid f) ∧ f.Agrees digits
      ∧ digits.length < f.prefixKeys.length ∧ e.prefixKeys.length < f.prefixKeys.length := by
  have hwaits : ∀ f : PlanEntry, (f.live digits && !f.holds digits) = true
      ↔ f.Agrees digits ∧ digits.length < f.prefixKeys.length := fun f => by
    rw [Bool.and_eq_true, Bool.not_eq_true', Bool.eq_false_iff, Ne, holds_iff, live_iff, not_and, Nat.not_le]
    exact ⟨fun ⟨h, h'⟩ => ⟨h, h' h⟩, fun ⟨h, h'⟩ => ⟨h, fun _ => h'⟩⟩
  show blockedBy table digits (selectEntry table digits) = true ↔ ∃ i e j f, selectEntry table digits = some (i, e) ∧ _
  cases selectEntry table digits with
  | none => simp [blockedBy]
  | some x =>
    simp only [blockedBy, List.any_eq_true, Bool.and_eq_true (_ && _), hwaits, decide_eq_true_iff, Prod.exists, mem_valid,
      and_assoc]
    obtain ⟨i, e⟩ := x
    simp

end Evaluation

/-- Settles O29: the live entries, the selected one, and what blocks it, each by its own equivalence. -/
theorem planEvaluation : Obligations.PlanEvaluation := by
  intro table digits _ agrees entry holding ev
  refine ⟨evaluate_live, fun i e => selectEntry_iff, selectEntry_none, evaluate_blocked, fun i e more hh => ?_,
    fun hlen hdigits => ?_⟩
  · obtain ⟨he, ha, hle⟩ := hh
    exact evaluate_live.2 ⟨i, e, he, PlanEntry.Agrees.append ha hle more⟩
  · refine Bool.eq_false_iff.2 fun hb => ?_
    obtain ⟨-, -, j, f, -, hf, -, hlong, -⟩ := evaluate_blocked.1 hb
    have := hlen j f hf
    omega

end Sys2Proof.Machine
end

section
/-! SUPPORT. Plan loads (O43): the classification of an entry's words (R101, R187), the 64 positions of a loaded image, and
the outcome of a load (R182). -/

namespace Sys2Proof.Machine

/-! ### Fields of the words of an entry (R187) -/

theorem field_one (w : Word) (i : Nat) : field w i 1 = (w.getLsbD i).toNat := by
  rw [BitVec.getLsbD, Nat.toNat_testBit]
  rfl

theorem field_zero (w : Word) (width : Nat) : field w 0 width = w.toNat % 2 ^ width := by simp [field]

/-- The code of prefix position j of an entry (R187). -/
theorem field_nibble (w : Word) (j : Nat) : field w (4 * j) 4 = w.toNat / 16 ^ j % 16 := by
  rw [field, pow_mul]
  norm_num

/-- The prefix length an entry's words give (R187). -/
theorem field_prefixLength (w : Word) : field w 0 4 = w.toNat % 16 := field_zero w 4

/-- The length value an entry's words give (R187). -/
theorem field_lengthValue (w : Word) : field w 8 5 = w.toNat / 256 % 32 := by norm_num [field]

/-! ### The classification of an entry (R101) -/

/-- What makes an entry that is marked valid an ignored one (R101). -/
def BadEntry (w0 w1 : Word) : Prop :=
  let length := w1.toNat % 16
  let value := w1.toNat / 256 % 32
  length = 0 ∨ 8 < length ∨ (1 ≤ value ∧ value ≤ 24 ∧ value < length) ∨ 24 < value
    ∨ ∃ j, j < length ∧ 10 ≤ w0.toNat / 16 ^ j % 16 ∧ w0.toNat / 16 ^ j % 16 ≤ 14

/-- The entry that a valid position's words give (R100, R187). -/
def entryOf (w0 w1 : Word) : PlanEntry where
  prefixKeys := (List.range (w1.toNat % 16)).map fun j => prefixKeyOf (w0.toNat / 16 ^ j % 16)
  length := if w1.toNat / 256 % 32 = 0 then none else some (w1.toNat / 256 % 32)
  endKey := w1.getLsbD 17
  cls := if w1.getLsbD 18 = true then .urgent else .normal

section Classify

variable {w0 w1 : Word}

/-- Some prefix code read is 10 to 14, which codes no digit. -/
theorem any_reservedCode_iff {length : Nat} :
    (((List.range length).map fun j => field w0 (4 * j) 4).any fun c => decide (10 ≤ c ∧ c ≤ 14)) = true
      ↔ ∃ j, j < length ∧ 10 ≤ w0.toNat / 16 ^ j % 16 ∧ w0.toNat / 16 ^ j % 16 ≤ 14 := by
  simp [field_nibble]

theorem classify_vacant (h : w1.getLsbD 16 = false) : classify w0 w1 = .vacant :=
  if_pos (by rw [field_one, h]; rfl)

theorem field_mark (h : w1.getLsbD 16 = true) : ¬ field w1 16 1 = 0 := by
  rw [field_one, h]
  decide

theorem classify_bad (h : w1.getLsbD 16 = true) (hbad : BadEntry w0 w1) : classify w0 w1 = .ignored := by
  unfold classify
  rw [if_neg (field_mark h)]
  refine if_pos ?_
  rw [any_reservedCode_iff, field_prefixLength, field_lengthValue]
  exact hbad

theorem classify_good (h : w1.getLsbD 16 = true) (hgood : ¬ BadEntry w0 w1) :
    classify w0 w1 = .valid (entryOf w0 w1) := by
  unfold classify
  rw [if_neg (field_mark h), if_neg]
  · simp [entryOf, field_one, field_prefixLength, field_lengthValue, field_nibble, Function.comp_def]
  · rw [any_reservedCode_iff, field_prefixLength, field_lengthValue]
    exact hgood

theorem entryOf_prefixKeys_length : (entryOf w0 w1).prefixKeys.length = w1.toNat % 16 := by simp [entryOf]

theorem entryOf_prefixKeys_getElem? {j : Nat} (hj : j < w1.toNat % 16) :
    (entryOf w0 w1).prefixKeys[j]? = some (prefixKeyOf (w0.toNat / 16 ^ j % 16)) := by
  simp [entryOf, hj]

end Classify

/-- A code up to 9 is the digit of its own value (R100). -/
theorem prefixKeyOf_digit {code : Nat} (h : code ≤ 9) : ∃ key : Key, key.val = code ∧ prefixKeyOf code = some key :=
  ⟨Fin.ofNat 16 code, Nat.mod_eq_of_lt (by omega), if_neg (by omega)⟩

/-! ### The positions of a loaded image (R101, R181) -/

theorem classifyAll_length (ws : List Word) : (classifyAll ws).length = ws.length / 2 := by
  induction ws using classifyAll.induct with
  | case1 w0 w1 rest ih =>
    simp only [classifyAll, List.length_cons, ih]
    omega
  | case2 ws h =>
    match ws, h with
    | [], _ => rfl
    | [_], _ => simp [classifyAll]
    | w0 :: w1 :: rest, h => exact absurd rfl (h w0 w1 rest)

/-- Entry i is classified from words 2i and 2i + 1. -/
theorem classifyAll_getElem? {ws : List Word} {i : Nat} (h : 2 * i + 1 < ws.length) :
    (classifyAll ws)[i]? = some (classify (ws.getD (2 * i) 0) (ws.getD (2 * i + 1) 0)) := by
  induction i generalizing ws with
  | zero =>
    match ws, h with
    | _ :: _ :: _, _ => rfl
  | succ i ih =>
    match ws, h with
    | w0 :: w1 :: rest, h => exact ih (by simp only [List.length_cons] at h; omega)

/-- The count word's low byte, held to the 64 positions (R181). -/
theorem entryCount_eq (w : Word) : entryCount w = min (w.toNat % 256) 64 := by
  rw [entryCount, field_zero]
  rfl

section LoadedTable

variable {got : List Word} {count i : Nat}

/-- The words of the entries, between the count word and the final word (R181). -/
theorem entryWords_getD (h : i < 2 * count) : ((got.drop 1).take (2 * count)).getD i 0 = got.getD (i + 1) 0 := by
  simp [List.getD_eq_getElem?_getD, h]

variable (hcount : entryCount (got.getD 0 0) = count) (hlen : got.length = 2 * count + 2)

include hlen in
theorem entryWords_length : ((got.drop 1).take (2 * count)).length = 2 * count := by
  simp [hlen]

include hlen in
theorem readPositions_length : (classifyAll ((got.drop 1).take (2 * count))).length = count := by
  rw [classifyAll_length, entryWords_length hlen]
  omega

include hcount hlen in
/-- A complete image's positions: those read, then vacant ones up to 64 (R101). -/
theorem loadedTable_eq : loadedTable got
    = classifyAll ((got.drop 1).take (2 * count)) ++ List.replicate (64 - count) .vacant := by
  rw [loadedTable, hcount, readPositions_length hlen]

include hcount in
theorem count_le_positions : count ≤ 64 := by
  rw [← hcount, entryCount_eq]
  exact Nat.min_le_right _ _

include hcount hlen in
theorem loadedTable_length : (loadedTable got).length = 64 := by
  have hle := count_le_positions hcount
  rw [loadedTable_eq hcount hlen, List.length_append, readPositions_length hlen, List.length_replicate]
  omega

include hcount hlen in
theorem loadedTable_read (hi : i < count) :
    (loadedTable got)[i]? = some (classify (got.getD (2 * i + 1) 0) (got.getD (2 * i + 2) 0)) := by
  have hread : i < (classifyAll ((got.drop 1).take (2 * count))).length := by rwa [readPositions_length hlen]
  have hwords : 2 * i + 1 < ((got.drop 1).take (2 * count)).length := by
    rw [entryWords_length hlen]
    omega
  rw [loadedTable_eq hcount hlen, List.getElem?_append_left hread, classifyAll_getElem? hwords,
    entryWords_getD (by omega), entryWords_getD (by omega)]

include hcount hlen in
theorem loadedTable_beyond (hi : count ≤ i) (h64 : i < 64) : (loadedTable got)[i]? = some .vacant := by
  rw [loadedTable_eq hcount hlen, List.getElem?_append_right (by rwa [readPositions_length hlen]),
    readPositions_length hlen, List.getElem?_replicate, if_pos (by omega)]

end LoadedTable

/-! ### The outcome of a load (R102, R182) -/

section Outcome

variable (edition : Byte) (got : List Word) (s : State)

/-- A hand-over touches the journal and the port, and nothing else. -/
theorem handOver_eq (r : Record) :
    handOver r s = { s with arc := (handOver r s).arc, jnl := s.jnl.stage r } := by
  unfold handOver requestJournal
  split <;> rfl

/-- An outcome touches the port, the journal and the Plan Matcher, and nothing else. -/
theorem planOutcome_frame : planOutcome edition got s = { s with
    arc := (planOutcome edition got s).arc, jnl := (planOutcome edition got s).jnl
    plan := (planOutcome edition got s).plan } := by
  unfold planOutcome
  rw [handOver_jnl, handOver_plan]
  split <;> exact handOver_eq _ _

/-- Swapped in or refused, the edition is taken up (R182). -/
theorem planOutcome_planTakenUp : (planOutcome edition got s).arc.planTakenUp = some edition := by
  unfold planOutcome
  split <;> exact requestJournal_arc_planTakenUp _

variable {got}

/-- A load with a good check: the image's positions, edition and ignored count stand in the Plan Matcher, and the record
says so (R102, R182). -/
theorem planOutcome_good (h : halfSum got = 0) :
    (planOutcome edition got s).plan = ⟨loadedTable got, some edition, ignoredCount (loadedTable got)⟩
      ∧ (planOutcome edition got s).arc.loadOutcome = .adopted
      ∧ (planOutcome edition got s).arc.loadIgnored = ignoredCount (loadedTable got)
      ∧ (planOutcome edition got s).jnl
          = s.jnl.stage ⟨none, s.now, .plan edition .adopted (ignoredCount (loadedTable got))⟩ := by
  rw [planOutcome, if_pos h]
  exact ⟨handOver_plan _ _, requestJournal_arc_loadOutcome _, requestJournal_arc_loadIgnored _, handOver_jnl _ _⟩

/-- A load whose check fails leaves the Plan Matcher as it is, and the record says so (R102, R182). -/
theorem planOutcome_bad (h : halfSum got ≠ 0) :
    (planOutcome edition got s).plan = s.plan
      ∧ (planOutcome edition got s).arc.loadOutcome = .rejectedCheck
      ∧ (planOutcome edition got s).arc.loadIgnored = 0
      ∧ (planOutcome edition got s).jnl = s.jnl.stage ⟨none, s.now, .plan edition .rejectedCheck 0⟩ := by
  rw [planOutcome, if_neg h]
  exact ⟨handOver_plan _ _, requestJournal_arc_loadOutcome _, requestJournal_arc_loadIgnored _, handOver_jnl _ _⟩

end Outcome

/-- The step of a plan load whose last read is complete (R182). -/
theorem exec_planLoadOutcome {composeNow : Bool} {q : Sequence} {s : State} (hw : s.part.phase = .working)
    (hq : s.arc.inFlight = some q) (hkind : q.kind = .headerVisit) (hstage : q.stage = .planReadDone) :
    exec (.planLoadOutcome composeNow) s
      = .next (beginWriting composeNow q (planOutcome q.planEdition q.got s)) := by
  show execPlanLoadOutcome composeNow s = _
  simp only [execPlanLoadOutcome, hq]
  exact whenDue_true (by simp [working_iff.2 hw, hkind, hstage]) _ _

section BeginWriting

variable (composeNow : Bool) (q : Sequence) (s : State)

@[simp] theorem beginWriting_plan : (beginWriting composeNow q s).plan = s.plan := rfl
@[simp] theorem beginWriting_jnl : (beginWriting composeNow q s).jnl = s.jnl := rfl
@[simp] theorem beginWriting_arc_loadOutcome :
    (beginWriting composeNow q s).arc.loadOutcome = s.arc.loadOutcome := rfl
@[simp] theorem beginWriting_arc_loadIgnored :
    (beginWriting composeNow q s).arc.loadIgnored = s.arc.loadIgnored := rfl

/-- Beginning the writing step touches the port alone, so what a state `t` keeps of `s` it still keeps. -/
theorem beginWriting_frame {t : State} (h : t = { s with arc := t.arc, jnl := t.jnl, plan := t.plan }) :
    beginWriting composeNow q t
      = { s with arc := (beginWriting composeNow q t).arc, jnl := t.jnl, plan := t.plan } :=
  congrArg (fun u : State => { u with arc := (beginWriting composeNow q t).arc }) h

/-- A header visit begins its writing step: its header words are composed in this step or left for the first write. -/
theorem beginWriting_inFlight (hkind : q.kind = .headerVisit) :
    ∃ out, (beginWriting composeNow q s).arc.inFlight = some { q with stage := .writing, written := 0, out := out }
      ∧ (composeNow = false → out = none)
      ∧ (composeNow = true → out = some (headerWords (beginWriting composeNow q s))) := by
  have hwords : composeWords q s = headerWords s := by rw [composeWords, hkind]
  refine ⟨if composeNow then some (composeWords q s) else none, rfl, fun h => if_neg (by simp [h]), fun h => ?_⟩
  rw [if_pos h, hwords]
  rfl

end BeginWriting

/-- Settles O43: the outcome's two cases (`planOutcome_good`, `planOutcome_bad`) over the positions a complete image
gives, and the three classes an entry's words fall in. -/
theorem planLoadOutcomes : Obligations.PlanLoadOutcomes := by
  unfold Obligations.PlanLoadOutcomes
  refine ⟨?_, fun w0 w1 => ⟨classify_vacant, classify_bad, fun hmark hgood => ?_⟩⟩
  · intro composeNow q s hw hq hkind hstage count hlen
    have hcount : entryCount (q.got.getD 0 0) = count := entryCount_eq _
    refine ⟨_, exec_planLoadOutcome hw hq hkind hstage,
      beginWriting_frame composeNow q s (planOutcome_frame q.planEdition q.got s), planOutcome_planTakenUp _ _ s,
      beginWriting_inFlight composeNow q _ hkind, fun hgood => ?_, planOutcome_bad _ _⟩
    obtain ⟨hplan, houtcome, hignored, hjnl⟩ := planOutcome_good q.planEdition s hgood
    simp only [beginWriting_plan, beginWriting_jnl, beginWriting_arc_loadOutcome, beginWriting_arc_loadIgnored, hplan,
      houtcome, hignored, hjnl]
    exact ⟨loadedTable_length hcount hlen, trivial, fun i => loadedTable_read hcount hlen,
      fun i => loadedTable_beyond hcount hlen, rfl, trivial, trivial, trivial⟩
  · refine ⟨entryOf w0 w1, classify_good hmark hgood, entryOf_prefixKeys_length, fun j hj => ?_, rfl, rfl, rfl⟩
    rw [entryOf_prefixKeys_getElem? hj]
    refine ⟨fun hany => congrArg some (if_pos hany), fun hdigit => ?_⟩
    obtain ⟨key, hval, hkey⟩ := prefixKeyOf_digit hdigit
    exact ⟨key, hval, congrArg some hkey⟩

end Sys2Proof.Machine
end

section
/-! SUPPORT. No sender stays FREE while a line waits (O59): the arbiter restores this whatever it starts from, and every other
move of the line records and the pool keeps it (R130). -/

namespace Sys2Proof.Machine

/-! ### The arbiter restores the law (R130) -/

/-- The senders that are FREE. -/
def State.freeSenders (s : State) : Finset SenderNo := {k | (s.sender k).state = .free}

theorem mem_freeSenders {s : State} {k : SenderNo} : k ∈ s.freeSenders ↔ (s.sender k).state = .free := by
  simp [State.freeSenders]

/-- With no sender FREE, or no line waiting, the arbiter has nothing to do. -/
theorem ArbiterLaw.grantMany_same {s : State} (h : ArbiterLaw s) (b : Bool) (fuel : Nat) : grantMany b fuel s = s := by
  refine Machine.grantMany_same ?_ fuel
  rcases h with h | h
  · simp [grantOne, freeSender?_none h]
  · unfold grantOne
    rw [h]
    split
    · rename_i heq
      cases heq
    · rfl

/-- Where the law does not hold a grant is made, and its sender is FREE no longer. -/
theorem grantOne_freeSenders {b : Bool} {s : State} (h : ¬ ArbiterLaw s) :
    ∃ k ∈ s.freeSenders, (grantOne b s).freeSenders = s.freeSenders.erase k := by
  obtain ⟨hfree, hlist⟩ := not_or.1 h
  obtain ⟨e, rest, hw⟩ := List.exists_cons_of_ne_nil hlist
  cases hk : freeSender? s with
  | none => exact absurd (fun k => by simpa using List.find?_eq_none.1 hk k (by simp [allSenders])) hfree
  | some k =>
    refine ⟨k, mem_freeSenders.2 (freeSender?_some hk), Finset.ext fun j => ?_⟩
    have hg : grantOne b s = attach b k e.line (leaveWait e.line s) := by simp [grantOne, hk, hw]
    rw [hg, Finset.mem_erase, mem_freeSenders, mem_freeSenders]
    by_cases hj : j = k
    · simp [attach, hj, granted_not_free]
    · simp [attach, hj]

/-- As many grants as there are FREE senders are enough. -/
theorem grantMany_arbiterLaw (b : Bool) {fuel : Nat} {s : State} (h : s.freeSenders.card ≤ fuel) :
    ArbiterLaw (grantMany b fuel s) := by
  induction fuel generalizing s with
  | zero =>
    by_contra hlaw
    obtain ⟨k, hk, -⟩ := grantOne_freeSenders (b := b) (s := s) hlaw
    exact absurd (Finset.card_pos.2 ⟨k, hk⟩) (by omega)
  | succ fuel ih =>
    by_cases hlaw : ArbiterLaw s
    · rwa [hlaw.grantMany_same]
    · obtain ⟨k, hk, herase⟩ := grantOne_freeSenders (b := b) hlaw
      refine ih ?_
      rw [herase, Finset.card_erase_of_mem hk]
      omega

theorem arbitrate_arbiterLaw (b : Bool) (s : State) : ArbiterLaw (arbitrate b s) :=
  grantMany_arbiterLaw b ((Finset.card_le_univ _).trans (by simp))

/-! ### The moves that make no grant -/

/-- The law asks only which senders are FREE and whether a line waits. -/
theorem ArbiterLaw.congr {s t : State} (h : ArbiterLaw s) (hw : s.pool.waitList = [] → t.pool.waitList = [])
    (hk : ∀ k, (t.sender k).state = .free → (s.sender k).state = .free) : ArbiterLaw t :=
  h.imp (fun h k hf => h k (hk k hf)) hw

theorem ArbiterLaw.of_pool {s t : State} (h : ArbiterLaw s) (hp : t.pool = s.pool) : ArbiterLaw t :=
  h.congr (fun hw => by rw [hp, hw]) fun k => by simp [State.sender, hp]

theorem ArbiterLaw.sendersKept {s t : State} (h : ArbiterLaw s) (hw : t.pool.waitList = s.pool.waitList)
    (hk : SendersKept s t) : ArbiterLaw t :=
  h.congr (fun h => hw.trans h) fun k => (hk k).2.1

theorem ArbiterLaw.leaveWait {s : State} (h : ArbiterLaw s) (n : LineNo) : ArbiterLaw (leaveWait n s) :=
  h.congr (fun hw => by simp [Machine.leaveWait, hw]) fun _ hf => hf

theorem ArbiterLaw.requeue {s : State} (h : ArbiterLaw s) (n : LineNo) : ArbiterLaw (requeue n s) := by
  refine h.congr (fun hw => ?_) fun k hf => ?_
  · rw [requeue_absent (by simp [hw]), hw]
  · rwa [State.sender, (requeue_pool n s).2] at hf

theorem ArbiterLaw.joinTest {s : State} (h : ArbiterLaw s) (n : LineNo) : ArbiterLaw (joinTest n s) := by
  unfold Machine.joinTest
  split
  · exact arbitrate_arbiterLaw false _
  · exact h

theorem ArbiterLaw.cutSender {s : State} (h : ArbiterLaw s) (n : LineNo) (d : DevTime) : ArbiterLaw (cutSender n d s) := by
  unfold Machine.cutSender
  split
  · exact arbitrate_arbiterLaw false _
  · exact h

theorem ArbiterLaw.openMoves {n : LineNo} {s t : State} (h : ArbiterLaw s) (hm : OpenMoves n s t) : ArbiterLaw t := by
  induction hm with
  | refl => exact h
  | tail _ hm ih =>
    cases hm with
    | rest _ hp => exact ih.of_pool hp
    | line _ => exact ih.of_pool rfl
    | suspend => exact (ih.of_pool (setLine_pool _ n _)).leaveWait n
    | raise _ => exact (ih.of_pool (setLine_pool _ n _)).requeue n

/-! ### Every move -/

theorem Move.arbiterLaw {s t : State} (hm : Move s t) (h : ArbiterLaw s) : ArbiterLaw t := by
  cases hm with
  | rest _ hp => exact h.of_pool hp
  | line _ _ => exact h.of_pool rfl
  | senders _ hw _ hk => exact h.sendersKept hw hk
  | tick _ hw _ hk => exact h.sendersKept hw hk
  | event he => exact (h.openMoves he).joinTest _
  | suspended he _ => exact h.openMoves he
  | flush => exact (h.of_pool (setLine_pool ..)).leaveWait _
  | keys _ _ => exact h.of_pool rfl
  | release _ => exact ((h.of_pool (setLine_pool ..)).leaveWait _).cutSender _ _
  | free _ _ => exact arbitrate_arbiterLaw _ _
  | reset _ hp => exact .inr (by rw [hp]; rfl)

theorem Moves.arbiterLaw {s t : State} (hm : Moves s t) (h : ArbiterLaw s) : ArbiterLaw t := by
  induction hm with
  | refl => exact h
  | tail _ hm ih => exact hm.arbiterLaw ih

/-- Settles O59: every change a command makes to the pool ends in arbitration, or gives it nothing to do. -/
theorem arbiterLawKept : Obligations.ArbiterLawKept := fun _ _ h he => (step_moves he).arbiterLaw h

end Sys2Proof.Machine
end

section
/-! SUPPORT. What an event of one line reaches, said once of every operation of a line: its own record, the senders that are
FREE or its own, and records of that line (R130, R131, R191); with it the commands of one line (O5). -/

namespace Sys2Proof.Machine

/-! ### The relation of an event of a line -/

/-- A sender's state fits a clock state: FREE, or PAUSED exactly outside LOCKED (R140, R141). -/
def SenderState.Fits (x : SenderState) (c : ClockState) : Prop := x = .free ∨ (x = .paused ↔ c ≠ .locked)

/-- An event of line n may reach sender k: it is FREE, or the line's own. -/
def State.Reaches (s : State) (n : LineNo) (k : SenderNo) : Prop :=
  (s.sender k).state = .free ∨ (s.line n).attached = some k

/-- An event of line n: no other block, no other line but for grants, no sender out of its reach, records of line n alone, and
no sender moved to a state that the clock does not allow. -/
structure LineStep (n : LineNo) (s t : State) : Prop where
  event : LineEvent n s t
  senders : ∀ k, ¬ s.Reaches n k → t.sender k = s.sender k ∧ ¬ t.Reaches n k
  fits : ∀ k, (t.sender k).state = (s.sender k).state ∨ (t.sender k).state.Fits s.clk.state
  records : ∃ rs, Recorded rs s t ∧ ∀ r ∈ rs, r.line = some n

theorem LineStep.clk {n : LineNo} {s t : State} (h : LineStep n s t) : t.clk = s.clk := by
  obtain ⟨-, -, -, -, -, -, hc, -⟩ := h.event.1
  exact hc

theorem LineStep.refl (n : LineNo) (s : State) : LineStep n s s :=
  ⟨.refl n s, fun _ hk => ⟨rfl, hk⟩, fun _ => .inl rfl, [], .refl s, by simp⟩

theorem LineStep.trans {n : LineNo} {s t u : State} (h : LineStep n s t) (h' : LineStep n t u) : LineStep n s u where
  event := h.event.trans h'.event
  senders k hk := by
    obtain ⟨hs, ht⟩ := h.senders k hk
    obtain ⟨hs', ht'⟩ := h'.senders k ht
    exact ⟨hs'.trans hs, ht'⟩
  fits k := by
    rcases h'.fits k with hf | hf
    · rw [hf]
      exact h.fits k
    · rw [h.clk] at hf
      exact .inr hf
  records := by
    obtain ⟨rs, hr, hn⟩ := h.records
    obtain ⟨rs', hr', hn'⟩ := h'.records
    exact ⟨rs ++ rs', hr.trans hr', fun r hm => (List.mem_append.1 hm).elim (hn r) (hn' r)⟩

/-- A change of line n's record that leaves it its sender. -/
theorem lineStep_setLine {n : LineNo} {s : State} {l : Line} (h : l.attached = (s.line n).attached := by rfl) :
    LineStep n s (s.setLine n l) where
  event := lineEvent_setLine n s l
  senders k hk := ⟨rfl, by simpa [State.Reaches, h] using hk⟩
  fits _ := .inl rfl
  records := ⟨[], recorded_nil.2 ⟨rfl, rfl⟩, by simp⟩

theorem lineStep_handOver {n : LineNo} (d : DevTime) (b : RecordBody) (s : State) :
    LineStep n s (handOver (lineRecord n d b) s) where
  event := (handOver_records n _ s).1
  senders k hk := ⟨by simp, by simpa [State.Reaches] using hk⟩
  fits _ := .inl (by simp)
  records := ⟨_, handOver_recorded _ s, by simp [lineRecord]⟩

theorem LineStep.setLine {n : LineNo} {s t : State} (h : LineStep n s t) {l : Line}
    (ha : l.attached = (t.line n).attached := by rfl) : LineStep n s (t.setLine n l) := h.trans (lineStep_setLine ha)

theorem LineStep.handOver {n : LineNo} {s t : State} (h : LineStep n s t) (d : DevTime) (b : RecordBody) :
    LineStep n s (handOver (lineRecord n d b) t) := h.trans (lineStep_handOver d b t)

/-! ### The wait list and the arbiter (R126 to R131) -/

/-- An operation of the pool that touches no sender. -/
theorem PoolEvent.lineStep {s t : State} (h : PoolEvent s t) (n : LineNo) (hl : (t.line n).attached = (s.line n).attached)
    (hk : ∀ k, t.sender k = s.sender k) : LineStep n s t where
  event := h.lineEvent n
  senders k hr := ⟨hk k, by simpa [State.Reaches, hl, hk] using hr⟩
  fits k := .inl (by rw [hk])
  records := ⟨[], h.recorded, by simp⟩

theorem lineStep_leaveWait (n m : LineNo) (s : State) : LineStep n s (leaveWait m s) :=
  (leaveWait_event m s).lineStep n rfl fun _ => rfl

theorem lineStep_joinWait (n m : LineNo) (s : State) : LineStep n s (joinWait m s) :=
  (joinWait_event m s).lineStep n rfl fun _ => rfl

theorem lineStep_requeue (n m : LineNo) (s : State) : LineStep n s (requeue m s) :=
  (requeue_event m s).lineStep n (by rw [line_requeue]) fun k => congrArg (·[k]) (requeue_pool m s).2

theorem grantedSender_fits (b : Bool) (n : LineNo) (c : ClockState) : (grantedSender b n c).state.Fits c := by
  cases c <;> simp [grantedSender, SenderState.Fits]

/-- A grant reaches a FREE sender and the line that gets it (R131). -/
theorem lineStep_attach (b : Bool) {k : SenderNo} (n m : LineNo) {s : State} (hk : (s.sender k).state = .free) :
    LineStep n s (attach b k m s) where
  event := (attach_event b k m s).lineEvent n
  senders j hj := by
    obtain ⟨hfree, hown⟩ := not_or.1 hj
    have hne : j ≠ k := by
      rintro rfl
      exact hfree hk
    refine ⟨by simp [attach, hne], not_or.2 ⟨by simpa [attach, hne] using hfree, ?_⟩⟩
    by_cases hnm : n = m
    · simpa [attach, hnm] using fun h => hne h.symm
    · simpa [attach, hnm] using hown
  fits j := by
    by_cases hj : j = k
    · exact .inr (by simpa [attach, hj] using grantedSender_fits b m s.clk.state)
    · exact .inl (by simp [attach, hj])
  records := ⟨[], (attach_event b k m s).recorded, by simp⟩

theorem lineStep_grantOne (b : Bool) (n : LineNo) (s : State) : LineStep n s (grantOne b s) := by
  unfold grantOne
  split
  · rename_i k e rest hk hw
    exact (lineStep_leaveWait n e.line s).trans (lineStep_attach b n e.line (freeSender?_some hk))
  · exact .refl n s

theorem lineStep_arbitrate (b : Bool) (n : LineNo) (s : State) : LineStep n s (arbitrate b s) := by
  have hmany : ∀ fuel s, LineStep n s (grantMany b fuel s) := by
    intro fuel
    induction fuel with
    | zero => exact fun s => .refl n s
    | succ fuel ih => exact fun s => (lineStep_grantOne b n s).trans (ih _)
  exact hmany 16 s

theorem lineStep_joinTest (n m : LineNo) (s : State) : LineStep n s (joinTest m s) := by
  unfold joinTest
  split
  · exact (lineStep_joinWait n m s).trans (lineStep_arbitrate false n _)
  · exact .refl n s

theorem LineStep.joinTest {n : LineNo} {s t : State} (h : LineStep n s t) (m : LineNo) : LineStep n s (joinTest m t) :=
  h.trans (lineStep_joinTest n m t)

/-- The line's own sender is freed, with its SEND_DONE record (R142). -/
theorem lineStep_freeSender {n : LineNo} {k : SenderNo} {s : State} (reason : SendReason) (d : DevTime)
    (ha : (s.line n).attached = some k) : LineStep n s (freeSender k n reason d s) := by
  obtain ⟨hb, hl, hr, hn, hk⟩ := freeSender_spec k n reason d s
  refine ⟨⟨hb, hl.others n⟩, fun j hj => ?_, fun j => ?_, _, hr, by simp [sendDone, lineRecord]⟩
  · obtain ⟨hfree, hown⟩ := not_or.1 hj
    have hne : j ≠ k := by
      rintro rfl
      exact hown ha
    have hsame : (freeSender k n reason d s).sender j = s.sender j := by simp [freeSender, detach, hne]
    exact ⟨hsame, not_or.2 ⟨by rwa [hsame], by simp [hn]⟩⟩
  · by_cases hj : j = k
    · exact .inr (.inl (by rw [hj, hk]; rfl))
    · exact .inl (by simp [freeSender, detach, hj])

theorem lineStep_cutSender (n : LineNo) (d : DevTime) (s : State) : LineStep n s (cutSender n d s) := by
  unfold cutSender
  split
  · rename_i k hk
    exact (lineStep_freeSender .cut d hk).trans (lineStep_arbitrate false n _)
  · exact .refl n s

/-! ### Condition sets, adoptions, classes and completions -/

theorem lineStep_suspendLine (n : LineNo) (set : CondSet) (target : ResumeTarget) (prior : MainState) (d : DevTime)
    (s : State) : LineStep n s (suspendLine n set target prior d s) :=
  ((LineStep.refl n s).setLine.trans (lineStep_leaveWait n n _)).handOver d _

theorem lineStep_raiseSet (n : LineNo) (b : Bool) (set : CondSet) (d : DevTime) (s : State) :
    LineStep n s (raiseSet n b set d s) := by
  have h1 : LineStep n s (s.setLine n ((s.line n).applySet b set)) := lineStep_setLine
  simp only [raiseSet]
  split
  · exact h1.trans (lineStep_suspendLine n set _ _ d _)
  · exact h1

theorem LineStep.raiseSet {n : LineNo} {s t : State} (h : LineStep n s t) (b : Bool) (set : CondSet) (d : DevTime) :
    LineStep n s (raiseSet n b set d t) := h.trans (lineStep_raiseSet n b set d t)

theorem adopt_attached (p : Profile) (l : Line) : (l.adopt p).attached = l.attached := by
  unfold Line.adopt
  simp only
  split <;> rfl

theorem lineStep_adoptPending (n : LineNo) (d : DevTime) (s : State) : LineStep n s (adoptPending n d s) := by
  unfold adoptPending
  split
  · exact (lineStep_setLine (adopt_attached _ _)).handOver d _
  · exact .refl n s

theorem LineStep.adoptPending {n : LineNo} {s t : State} (h : LineStep n s t) (d : DevTime) :
    LineStep n s (adoptPending n d t) := h.trans (lineStep_adoptPending n d t)

theorem lineStep_raiseClass (n : LineNo) (ev : Evaluation) (s : State) : LineStep n s (raiseClass n ev s) := by
  rcases raiseClass_cases n ev s with h | ⟨-, h⟩ <;> rw [h]
  · exact .refl n s
  · exact (LineStep.refl n s).setLine.trans (lineStep_requeue n n _)

theorem lineStep_completeNumber (n : LineNo) (p : Profile) (o : NumberOutcome) (ev : Evaluation) (d : DevTime) (s : State) :
    LineStep n s (completeNumber n p o ev d s) := by
  unfold completeNumber
  extract_lets l ks set s1 s2 s3
  have h1 : LineStep n s s1 := (show LineStep n s (offerTo n ks s) from lineStep_setLine).handOver d _
  have h2 : LineStep n s s2 := h1.setLine
  have h3 : LineStep n s s3 := h2.setLine
  refine LineStep.joinTest ?_ n
  split
  · exact h3.trans (lineStep_suspendLine n set _ _ d s3)
  · exact h3

/-- A class raise and then a completion (R103, R105, R111). -/
theorem lineStep_evaluated (n : LineNo) (p : Profile) (o : NumberOutcome) (ev : Evaluation) (d : DevTime) (s : State) :
    LineStep n s (completeNumber n p o ev d (raiseClass n ev s)) :=
  (lineStep_raiseClass n ev s).trans (lineStep_completeNumber n p o ev d _)

theorem lineStep_evaluateAfterDigit (n : LineNo) (p : Profile) (d : DevTime) (s : State) :
    LineStep n s (evaluateAfterDigit n p d s) := by
  simp only [evaluateAfterDigit]
  split
  · exact lineStep_evaluated n p _ _ d s
  · exact lineStep_raiseClass n _ s

/-! ### Digits, releases and blocks -/

/-- The record of a digit end keeps its sender, before a trapped set suspends the line. -/
theorem endDigit_attached (set : CondSet) (key : Option Key) (ks : List StoredKey) (l : Line) :
    (if l.traps set then l.applySet true set
      else { (l.applySet true set).collect key with store := offer ks (l.applySet true set).store }).attached
      = l.attached := by
  split
  · rfl
  · exact (lineKept_collect key _).attached

theorem lineStep_endDigit (n : LineNo) (p : Profile) (d : DevTime) (s : State) : LineStep n s (endDigit n p d s) := by
  unfold endDigit
  extract_lets l key ks full set l1 collected l2 disposition l3 s1
  have h1 : LineStep n s s1 := 
    (lineStep_setLine (l := { l2.dropTrain with lastCauses := l1.causes }) (endDigit_attached set key ks l)).handOver d _
  split
  · exact h1.trans (lineStep_suspendLine n set _ _ d s1)
  · split
    · exact (h1.trans (lineStep_evaluateAfterDigit n p d s1)).joinTest n
    · exact h1.joinTest n

theorem lineStep_enterCollecting (n : LineNo) (d : DevTime) (s : State) : LineStep n s (enterCollecting n d s) :=
  (LineStep.refl n s).setLine.handOver d _

theorem lineStep_releaseEffects (n : LineNo) (m : MainState) (d : DevTime) (s : State) :
    LineStep n s (releaseEffects n m d s) :=
  ((LineStep.refl n s).setLine.trans (lineStep_leaveWait n n _)).trans (lineStep_cutSender n d _)

theorem lineStep_releaseLine (n : LineNo) (d : DevTime) (s : State) : LineStep n s (releaseLine n d s) :=
  ((lineStep_handOver d _ s).trans (lineStep_releaseEffects n .onHook d _)).adoptPending d

theorem lineStep_enterBlocked (n : LineNo) (reason : BlockReason) (d : DevTime) (s : State) :
    LineStep n s (enterBlocked n reason d s) := by
  have h1 : LineStep n s (handOver (lineRecord n d (.block reason)) (s.setLine n (s.line n).restart)) :=
    (LineStep.refl n s).setLine.handOver d _
  simp only [enterBlocked]
  split
  · exact (h1.trans (lineStep_releaseEffects n _ d _)).adoptPending d
  · exact h1.setLine.adoptPending d

theorem lineStep_leaveBlocked (n : LineNo) (reason : BlockReason) (d : DevTime) (s : State) :
    LineStep n s (leaveBlocked n reason d s) := (LineStep.refl n s).setLine.handOver d _

/-! ### The request step (R174, R175) -/

theorem lineStep_inject (n : LineNo) (count : Nat) (keys : Word) (s : State) : LineStep n s (doInject n count keys s).1 := by
  simp only [doInject]
  split
  · exact LineStep.joinTest lineStep_setLine n
  · exact .refl n s

/-- The line's own sender is given the flush mark. -/
theorem lineStep_flushMark {n : LineNo} {k : SenderNo} {s : State} (ha : (s.line n).attached = some k) :
    LineStep n s (s.setSender k { s.sender k with flushMark := true }) where
  event := ⟨⟨rfl, rfl, rfl, rfl, rfl, rfl, rfl, rfl⟩, fun _ _ => rfl⟩
  senders j hj := by
    have hne : j ≠ k := by
      rintro rfl
      exact hj (.inr ha)
    exact ⟨by simp [hne], by simpa [State.Reaches, hne] using hj⟩
  fits j := .inl (by by_cases hj : j = k <;> simp [hj])
  records := ⟨[], recorded_nil.2 ⟨rfl, rfl⟩, by simp⟩

theorem lineStep_flush (n : LineNo) (s : State) : LineStep n s (doFlush n s).1 := by
  simp only [doFlush]
  split
  · split
    · exact .refl n s
    · split
      · rename_i k hk
        exact LineStep.trans (t := s.setLine n { s.line n with store := (s.line n).store.take 1 }) lineStep_setLine
          (lineStep_flushMark (by simpa using hk))
      · exact (LineStep.refl n s).setLine.trans (lineStep_leaveWait n n _)
  · exact .refl n s

theorem lineStep_endNumber (n : LineNo) (d : DevTime) (s : State) : LineStep n s (doEndNumber n d s).1 := by
  simp only [doEndNumber]
  split
  · split
    · exact lineStep_evaluated n _ _ _ d s
    · exact .refl n s
  · exact .refl n s

theorem lineStep_resume (n : LineNo) (s : State) : LineStep n s (doResume n s).1 := by
  simp only [doResume]
  split
  · rename_i hm
    split
    · rename_i t ht
      exact (lineStep_setLine (lineKept_resumeTo hm ht).attached).joinTest n
    · exact .refl n s
  · exact .refl n s

theorem lineStep_block (n : LineNo) (d : DevTime) (s : State) : LineStep n s (doBlock n d s).1 := by
  unfold doBlock
  split
  · exact .refl n s
  · exact .refl n s
  all_goals exact lineStep_enterBlocked n .admin d s

theorem lineStep_unblock (n : LineNo) (d : DevTime) (s : State) : LineStep n s (doUnblock n d s).1 := by
  unfold doUnblock
  split
  · exact lineStep_leaveBlocked n .admin d s
  · exact .refl n s

theorem lineStep_resetSpeed (n : LineNo) (s : State) : LineStep n s (doResetSpeed n s).1 := by
  simp only [doResetSpeed]
  split
  · split
    · exact .refl n s
    · exact lineStep_setLine
  · exact .refl n s

theorem lineStep_clearFlags (n : LineNo) (s : State) : LineStep n s (doClearFlags n s).1 := lineStep_setLine

theorem LineStep.takeRequest {n : LineNo} {s : State} {r : State × RequestOutcome} (h : LineStep n s r.1) (edition : Byte) :
    LineStep n s (takeRequest n edition s r) := by
  unfold Machine.takeRequest acknowledge
  split
  · exact .refl n s
  · exact h.setLine

/-! ### The commands of one line -/

/-- A request row is its request, acknowledged. -/
theorem LineStep.requested {n : LineNo} {edition : Byte} {due : Bool} {s t : State} {r : State × RequestOutcome}
    (he : whenDue due s (Machine.takeRequest n edition s r) = .next t) (h : LineStep n s r.1) : LineStep n s t :=
  whenDue_keeps he (.refl n s) fun _ => h.takeRequest edition

theorem lineStep_interdigitExpiry {n : LineNo} {s t : State} (h : execInterdigitExpiry n s = .next t) : LineStep n s t := by
  unfold execInterdigitExpiry at h
  split at h
  · exact whenDue_keeps h (.refl n s) fun _ => lineStep_endDigit n _ _ s
  · cases h
    exact .refl n s

theorem lineStep_completionTimerExpiry {n : LineNo} {s t : State} (h : execCompletionTimerExpiry n s = .next t) :
    LineStep n s t := by
  unfold execCompletionTimerExpiry at h
  split at h
  · exact whenDue_keeps h (.refl n s) fun _ => lineStep_evaluated n _ _ _ _ s
  · cases h
    exact .refl n s

/-- Every command of one line is an event of that line. -/
theorem exec_lineStep {c : Instr} {n : LineNo} {s t : State} (hn : lineOf c = some n) (h : exec c s = .next t) :
    LineStep n s t := by
  have hrefl := LineStep.refl n s
  cases c <;> cases hn
  case guardExpiry =>
    exact whenDue_keeps (show execGuardExpiry n s = .next t from h) hrefl fun _ => lineStep_enterCollecting n _ s
  case interdigitExpiry => exact lineStep_interdigitExpiry h
  case completionTimerExpiry => exact lineStep_completionTimerExpiry h
  case release => exact whenDue_keeps (show execRelease n s = .next t from h) hrefl fun _ => lineStep_releaseLine n _ s
  case faultBlock =>
    exact whenDue_keeps (show execFaultBlock n s = .next t from h) hrefl fun _ => lineStep_enterBlocked n .fault _ s
  case faultReturn =>
    exact whenDue_keeps (show execFaultReturn n s = .next t from h) hrefl fun _ => lineStep_leaveBlocked n .fault _ s
  case requestNone e => exact .requested (r := doNone s) (show execNone n e s = .next t from h) hrefl
  case inject e c ks => exact .requested (show execInject n e c ks s = .next t from h) (lineStep_inject n _ ks s)
  case flush e => exact .requested (show execFlush n e s = .next t from h) (lineStep_flush n s)
  case endNumber e => exact .requested (show execEndNumber n e s = .next t from h) (lineStep_endNumber n _ s)
  case resume e => exact .requested (show execResume n e s = .next t from h) (lineStep_resume n s)
  case clearFlags e => exact .requested (show execClearFlags n e s = .next t from h) (lineStep_clearFlags n s)
  case block e => exact .requested (show execBlock n e s = .next t from h) (lineStep_block n _ s)
  case unblock e => exact .requested (show execUnblock n e s = .next t from h) (lineStep_unblock n _ s)
  case resetSpeed e => exact .requested (show execResetSpeed n e s = .next t from h) (lineStep_resetSpeed n s)
  case unknownRequest e c =>
    exact .requested (r := doUnknown s) (show execUnknownRequest n e c s = .next t from h) hrefl

/-- Settles O5: a command of one line is an event of that line, whose reach is its own sender and the FREE ones. -/
theorem lineCommandsKeepTheRest : Obligations.LineCommandsKeepTheRest := by
  intro c n s t hn he
  have h := exec_lineStep hn he
  obtain ⟨hblocks, hlines⟩ := h.event
  exact ⟨hblocks, hlines, fun k hfree hown => (h.senders k (not_or.2 ⟨hfree, hown⟩)).1, h.records⟩

end Sys2Proof.Machine
end

section
/-! SUPPORT. The commands that reach neither the clock nor the highway: those of the port, of the journal, of the register
window and of one line, with the samples of a frame and the take-up of a line. No sender leaves the states its clock allows
(R140, R141). -/

namespace Sys2Proof.Machine

/-! ### The events of a sample (R3, R20 to R65) -/

theorem lineStep_abandonSeizure (n : LineNo) (d : DevTime) (s : State) : LineStep n s (abandonSeizure n d s) :=
  (LineStep.refl n s).setLine.adoptPending d

theorem lineStep_breakStart (n : LineNo) (p : Profile) (marg : CondSet) (d : DevTime) (s : State) :
    LineStep n s (breakStart n p marg d s) := by
  simp only [breakStart]
  split
  · exact lineStep_abandonSeizure n d s
  · split
    · split
      · exact lineStep_setLine
      · exact lineStep_setLine
      · split
        · exact (LineStep.refl n s).setLine.raiseSet _ _ d
        · exact (LineStep.refl n s).setLine.raiseSet _ _ d
    · exact lineStep_setLine

theorem lineStep_seizeLine (n : LineNo) (p : Profile) (d : DevTime) (s : State) : LineStep n s (seizeLine n p d s) := by
  simp only [seizeLine]
  split
  · exact (LineStep.refl n s).setLine.trans (lineStep_enterCollecting n d _)
  · exact lineStep_setLine

theorem lineStep_breakGlitch (n : LineNo) (marg : CondSet) (d : DevTime) (s : State) :
    LineStep n s (breakGlitch n marg d s) := by
  simp only [breakGlitch]
  split
  · exact lineStep_setLine
  · exact lineStep_setLine
  · exact (LineStep.refl n s).setLine.raiseSet _ _ d

theorem lineStep_takeFlash (n : LineNo) (p : Profile) (d : DevTime) (s : State) : LineStep n s (takeFlash n p d s) := by
  unfold takeFlash
  extract_lets l full set s1 s2
  have h1 : LineStep n s s1 := lineStep_setLine
  split
  · exact (h1.handOver d _).trans (lineStep_suspendLine n set _ _ d _)
  · have h2 : LineStep n s s2 := LineStep.setLine (h1.setLine (lineKept_flashRestart p _).attached)
    exact (h2.handOver d _).joinTest n

theorem lineStep_endBreakIdle (n : LineNo) (p : Profile) (b : Nat) (d : DevTime) (s : State) :
    LineStep n s (endBreakIdle n p b d s) := by
  unfold endBreakIdle
  split
  · exact lineStep_setLine
  · split
    · exact lineStep_takeFlash n p d s
    · exact (LineStep.refl n s).setLine.raiseSet _ _ d

theorem lineStep_endBreakInTrain (n : LineNo) (p : Profile) (b : Nat) (marg : CondSet) (d : DevTime) (s : State) :
    LineStep n s (endBreakInTrain n p b marg d s) := by
  unfold endBreakInTrain
  split
  · exact (LineStep.refl n s).setLine.raiseSet _ _ d
  · split
    · exact (LineStep.refl n s).setLine.raiseSet _ _ d
    · exact (LineStep.refl n s).setLine.raiseSet _ _ d

theorem lineStep_endBreakSuspended (n : LineNo) (p : Profile) (b : Nat) (d : DevTime) (s : State) :
    LineStep n s (endBreakSuspended n p b d s) := by
  unfold endBreakSuspended
  split
  · exact (LineStep.refl n s).setLine.handOver d _
  · exact lineStep_setLine

theorem lineStep_makeStart (n : LineNo) (p : Profile) (marg : CondSet) (d : DevTime) (s : State) :
    LineStep n s (makeStart n p marg d s) := by
  simp only [makeStart]
  split
  · exact lineStep_seizeLine n p d s
  · split
    · split
      · exact lineStep_breakGlitch n marg d s
      · split
        · exact lineStep_endBreakSuspended n p _ d s
        · split
          · exact lineStep_endBreakIdle n p _ d s
          · exact lineStep_endBreakIdle n p _ d s
          · exact lineStep_endBreakInTrain n p _ marg d s
    · exact lineStep_setLine

theorem lineStep_conditioningSample (n : LineNo) (p : Profile) (code : LoopCode) (d : DevTime) (s : State) :
    LineStep n s (conditioningSample n p code d s) := by
  have h1 : LineStep n s (s.setLine n ((s.line n).conditioned p code)) := lineStep_setLine
  cases ht : (conditionLine p code (s.line n)).2 with
  | makeStart =>
    rw [conditioningSample_makeStart d ht]
    exact h1.trans (lineStep_makeStart n p _ d _)
  | breakStart =>
    rw [conditioningSample_breakStart d ht]
    exact h1.trans (lineStep_breakStart n p _ d _)
  | none =>
    rw [conditioningSample_quiet d ht]
    exact h1.raiseSet _ _ d

theorem lineStep_sampleLine (code : LoopCode) (n : LineNo) (d : DevTime) (s : State) :
    LineStep n s (sampleLine code n d s) := by
  rcases sampleLine_cases code n d s with he | he | he | ⟨p, -, he⟩ <;> rw [he]
  · exact .refl n s
  · unfold Line.clearSample
    split
    · exact lineStep_setLine
    · exact lineStep_setLine
  · exact lineStep_setLine
  · exact lineStep_conditioningSample n p code d s

/-! ### The take-up of a line (R164 to R176) -/

theorem profileTaken_attached (edition : Byte) (ws : List Word) (l : Line) :
    (l.profileTaken edition ws).attached = l.attached := by
  unfold Line.profileTaken
  split
  · rfl
  · rfl
  · simp only [Line.takeProfile]
    split
    · rfl
    · exact adopt_attached _ _

theorem lineStep_request (code count : Nat) (keys : Word) (n : LineNo) (d : DevTime) (s : State) :
    LineStep n s (doRequest code count keys n d s).1 := by
  unfold doRequest
  split_ifs
  · exact .refl n s
  · exact lineStep_inject n count keys s
  · exact lineStep_flush n s
  · exact lineStep_endNumber n d s
  · exact lineStep_resume n s
  · exact lineStep_clearFlags n s
  · exact lineStep_block n d s
  · exact lineStep_unblock n d s
  · exact lineStep_resetSpeed n s
  · exact .refl n s

theorem lineStep_takeUp (n : LineNo) (got : List Word) (d : DevTime) (s : State) : LineStep n s (takeUp n got d s) := by
  have h1 : LineStep n s (profileStep n (byteOf (got.getD 0 0) 0) (got.drop 2) d s) := by
    simp only [profileStep]
    split
    · exact .refl n s
    · exact (lineStep_setLine (profileTaken_attached _ _ _)).handOver d _
  exact h1.trans (LineStep.takeRequest (lineStep_request _ _ _ n d _) _)

/-! ### Steps that leave the clock and the highway -/

/-- The clock, the highway and the reset state are as they were, and a sender moves to no state that the clock does not allow. -/
structure ClockSame (s t : State) : Prop where
  clk : t.clk = s.clk
  hwy : t.hwy = s.hwy
  part : t.part = s.part
  fits : ∀ k, (t.sender k).state = (s.sender k).state ∨ (t.sender k).state.Fits s.clk.state

theorem ClockSame.of_pool {s t : State} (hp : t.pool = s.pool := by rfl) (hc : t.clk = s.clk := by rfl)
    (hh : t.hwy = s.hwy := by rfl) (hpart : t.part = s.part := by rfl) : ClockSame s t :=
  ⟨hc, hh, hpart, fun k => .inl (by simp [State.sender, hp])⟩

theorem ClockSame.refl (s : State) : ClockSame s s := .of_pool

theorem ClockSame.trans {s t u : State} (h : ClockSame s t) (h' : ClockSame t u) : ClockSame s u where
  clk := h'.clk.trans h.clk
  hwy := h'.hwy.trans h.hwy
  part := h'.part.trans h.part
  fits k := by
    rcases h'.fits k with hf | hf
    · rw [hf]
      exact h.fits k
    · rw [h.clk] at hf
      exact .inr hf

theorem LineStep.clockSame {n : LineNo} {s t : State} (h : LineStep n s t) : ClockSame s t := by
  obtain ⟨-, hpart, -, -, -, hh, hc, -⟩ := h.event.1
  exact ⟨hc, hh, hpart, h.fits⟩

theorem clockSame_sampleLines (frame : BitVec 192) (d : DevTime) (ns : List LineNo) (s : State) :
    ClockSame s (sampleLines frame d ns s) := by
  induction ns generalizing s with
  | nil => exact .refl s
  | cons n rest ih => exact (lineStep_sampleLine _ n d s).clockSame.trans (ih _)

theorem clockSame_endSequence (s : State) : ClockSame s (endSequence s) := by
  obtain ⟨-, -, hpool, -, -, hc, -, hh, -, -, hp, -⟩ := endSequence_spec s
  exact .of_pool hpool hc hh hp

/-- A sequence ends after a change of other blocks. -/
theorem clockSame_endSequence_of {s t : State} (h : ClockSame s t) : ClockSame s (endSequence t) :=
  h.trans (clockSame_endSequence t)

theorem clockSame_readRelease (r : Nat) (q : Sequence) (s : State) : ClockSame s (readRelease r q s) := by
  simp only [readRelease]
  split
  · exact clockSame_endSequence_of .of_pool
  · exact .of_pool

theorem clockSame_planOutcome (edition : Byte) (got : List Word) (s : State) : ClockSame s (planOutcome edition got s) := by
  simp only [planOutcome]
  split
  · exact .of_pool (handOver_pool _ _) (handOver_clk _ _) (handOver_hwy _ _) (handOver_part _ _)
  · exact .of_pool (handOver_pool _ _) (handOver_clk _ _) (handOver_hwy _ _) (handOver_part _ _)

theorem clockSame_readDone (data : Word) (q : Sequence) (s : State) : ClockSame s (readDone data q s) := by
  obtain ⟨-, -, hpool, -, -, hc, -, hh, -, hp, -⟩ := readDone_spec data q s
  exact .of_pool hpool hc hh hp

theorem clockSame_haltPort (s : State) : ClockSame s (haltPort s) := by
  unfold haltPort enterHalting
  split
  · exact .of_pool
  · simp only
    split <;> exact .of_pool
  all_goals exact .refl s

/-! ### The commands that do so -/

/-- The commands of the port, the journal and the register window that reach neither clock nor highway, with the samples of a
frame and the take-up of a line. -/
def keepsClock : Instr → Bool
  | .scanFrameComplete _ | .lineTakeUp _ => true
  | .sequenceStart | .busGrant | .transferDone _ | .visitComplete | .planLoadOutcome _ | .headerVisitComplete => true
  | .headerCheck | .busError _ | .busTimeout | .releaseRead | .journalCommit | .holdOffClear => true
  | .run | .halt | .clearFault | .ignoredCommand _ | .areaBaseWrite _ | .statusWrite _ | .attentionWrite _ => true
  | _ => false

theorem whenDue_clockSame {due : Bool} {s t u : State} (h : whenDue due s t = .next u) (ht : ClockSame s t) :
    ClockSame s u := whenDue_keeps h (.refl s) fun _ => ht

theorem clockSame_lineTakeUp {now : Bool} {s t : State} (h : execLineTakeUp now s = .next t) : ClockSame s t := by
  unfold execLineTakeUp at h
  split at h
  · split at h
    · exact whenDue_clockSame h ((lineStep_takeUp _ _ _ s).clockSame.trans .of_pool)
    all_goals
      cases h
      exact .refl s
  · cases h
    exact .refl s

theorem exec_keepsClock {i : Instr} {s t : State} (hi : keepsClock i = true) (h : exec i s = .next t) : ClockSame s t := by
  cases i
  case scanFrameComplete f =>
    exact whenDue_clockSame (show execScanFrameComplete f s = .next t from h)
      (ClockSame.trans (t := { s with scan := s.scan.finish s.now }) .of_pool (clockSame_sampleLines f _ _ _))
  case lineTakeUp => exact clockSame_lineTakeUp h
  case holdOffClear =>
    exact whenDue_clockSame (show execHoldOffClear s = .next t from h)
      (.of_pool (requestJournal_pool _) (requestJournal_clk _) (requestJournal_hwy _) (requestJournal_part _))
  case busTimeout => exact whenDue_clockSame (show execBusTimeout s = .next t from h) .of_pool
  case run => exact whenDue_clockSame (show execRun s = .next t from h) .of_pool
  case halt => exact whenDue_clockSame (show execHalt s = .next t from h) (clockSame_haltPort s)
  case clearFault => exact whenDue_clockSame (show execClearFault s = .next t from h) .of_pool
  case areaBaseWrite v => exact whenDue_clockSame (show execAreaBaseWrite v s = .next t from h) .of_pool
  case statusWrite v => exact whenDue_clockSame (show execStatusWrite v s = .next t from h) .of_pool
  case attentionWrite v => exact whenDue_clockSame (show execAttentionWrite v s = .next t from h) .of_pool
  case ignoredCommand => cases h; exact .refl s
  case sequenceStart | busGrant | busError =>
    simp only [exec, execSequenceStart, execBusGrant, execBusError] at h
    split at h
    · exact whenDue_clockSame h .of_pool
    · cases h; exact .refl s
  case headerVisitComplete | journalCommit =>
    simp only [exec, execHeaderVisitComplete, execJournalCommit] at h
    split at h
    · exact whenDue_clockSame h (clockSame_endSequence_of .of_pool)
    · cases h; exact .refl s
  case planLoadOutcome =>
    simp only [exec, execPlanLoadOutcome] at h
    split at h
    · exact whenDue_clockSame h ((clockSame_planOutcome _ _ s).trans .of_pool)
    · cases h; exact .refl s
  case transferDone data =>
    simp only [exec, execTransferDone] at h
    split at h
    · refine whenDue_clockSame h ?_
      split
      · exact .of_pool
      · exact ClockSame.trans .of_pool (clockSame_readDone data _ _)
    · cases h; exact .refl s
  case visitComplete =>
    simp only [exec, execVisitComplete] at h
    split at h
    · split at h
      · exact whenDue_clockSame h (clockSame_endSequence_of .of_pool)
      all_goals cases h; exact .refl s
    · cases h; exact .refl s
  case headerCheck =>
    simp only [exec, execHeaderCheck] at h
    split at h
    · refine whenDue_clockSame h ?_
      split
      · exact .of_pool
      · split
        · exact clockSame_endSequence_of .of_pool
        · exact .of_pool
    · cases h; exact .refl s
  case releaseRead =>
    simp only [exec, execReleaseRead] at h
    split at h
    · exact whenDue_clockSame h (clockSame_readRelease _ _ s)
    · cases h; exact .refl s
  all_goals cases hi

/-- These commands and those of one line. -/
def offClock (i : Instr) : Bool := keepsClock i || (lineOf i).isSome

theorem exec_clockSame {i : Instr} {s t : State} (hi : offClock i = true) (h : exec i s = .next t) : ClockSame s t := by
  rcases Bool.or_eq_true_iff.1 hi with hk | hl
  · exact exec_keepsClock hk h
  · obtain ⟨n, hn⟩ := Option.isSome_iff_exists.1 hl
    exact (exec_lineStep hn h).clockSame

end Sys2Proof.Machine
end

section
/-! SUPPORT. What the boundary steps of a sender reach beyond the line records, the pool and the journal (R134, R135, R148), and
the states they leave the senders in (R140, R141). -/

namespace Sys2Proof.Machine

/-! ### Slots composed again, and nothing else -/

/-- No block but the line records, the pool and the journal with its requests is reached, but for slots of XTXD composed again
in a boundary frame that is driven (R148, R150, R156). -/
structure SenderFrame (s t : State) : Prop where
  pending : t.pending = s.pending
  part : t.part = s.part
  regs : t.regs = s.regs
  scan : t.scan = s.scan
  plan : t.plan = s.plan
  clk : t.clk = s.clk
  mem : t.mem = s.mem
  hwy : t.hwy = { s.hwy with xtxd := t.hwy.xtxd }
  slots : ∀ n : LineNo, t.hwy.xtxd[n] = s.hwy.xtxd[n] ∨ boundaryFrame s = true ∧ t.hwy.xtxd[n] ≠ none

theorem OtherBlocksSame.senderFrame {s t : State} (h : OtherBlocksSame s t) : SenderFrame s t := by
  obtain ⟨hp, hpart, hr, hs, hpl, hh, hc, hm⟩ := h
  exact ⟨hp, hpart, hr, hs, hpl, hc, hm, by rw [hh], fun n => .inl (by rw [hh])⟩

theorem SenderFrame.refl (s : State) : SenderFrame s s := (OtherBlocksSame.refl s).senderFrame

theorem senderFrame_setSender (k : SenderNo) (x : Sender) (s : State) : SenderFrame s (s.setSender k x) :=
  OtherBlocksSame.senderFrame ⟨rfl, rfl, rfl, rfl, rfl, rfl, rfl, rfl⟩

/-- A frame goes on being driven, or not. -/
theorem SenderFrame.boundaryFrame {s t : State} (h : SenderFrame s t) : boundaryFrame t = boundaryFrame s := by
  have hsame : t.hwy.driven = s.hwy.driven → Machine.boundaryFrame t = Machine.boundaryFrame s := fun hd => by
    simp only [Machine.boundaryFrame, State.working, h.part, h.clk, hd]
  rcases h.slots 0 with h0 | ⟨hb, h0⟩
  · exact hsame (congrArg Option.isSome h0)
  · refine hsame (Eq.trans (b := true) (Option.isSome_iff_ne_none.2 h0) ?_)
    simp only [Machine.boundaryFrame, Bool.and_eq_true] at hb
    exact hb.2.symm

theorem SenderFrame.trans {s t u : State} (h : SenderFrame s t) (h' : SenderFrame t u) : SenderFrame s u where
  pending := h'.pending.trans h.pending
  part := h'.part.trans h.part
  regs := h'.regs.trans h.regs
  scan := h'.scan.trans h.scan
  plan := h'.plan.trans h.plan
  clk := h'.clk.trans h.clk
  mem := h'.mem.trans h.mem
  hwy := by rw [h'.hwy, h.hwy]
  slots n := by
    rcases h'.slots n with hn | ⟨hb, hn⟩
    · rw [hn]
      exact h.slots n
    · exact .inr ⟨h.boundaryFrame ▸ hb, hn⟩

/-- In a frame that is not driven the highway is as it was (R156). -/
theorem SenderFrame.hwy_undriven {s t : State} (h : SenderFrame s t) (hb : Machine.boundaryFrame s = false) :
    t.hwy = s.hwy := by
  have hx : t.hwy.xtxd = s.hwy.xtxd := Vector.ext fun i hi => by
    rcases h.slots ⟨i, hi⟩ with hn | ⟨hb', -⟩
    · exact hn
    · simp [hb] at hb'
  rw [h.hwy, hx]

theorem senderFrame_recompose (moved : LineNo → Bool) (s : State) : SenderFrame s (recompose moved s) := by
  obtain ⟨he, hx⟩ := recompose_spec moved s
  generalize recompose moved s = t at he hx
  refine ⟨by rw [he], by rw [he], by rw [he], by rw [he], by rw [he], by rw [he], by rw [he], by rw [he], fun n => ?_⟩
  rw [hx n]
  split
  · rename_i h
    exact .inr ⟨h.1, by simp⟩
  · exact .inl rfl

theorem senderFrame_beginBurst (k : SenderNo) (n : LineNo) (s : State) : SenderFrame s (beginBurst k n s) := by
  simp only [beginBurst]
  split
  · rename_i hb
    refine ⟨rfl, rfl, rfl, rfl, rfl, rfl, rfl, rfl, fun m => ?_⟩
    by_cases hm : m = n
    · subst hm
      exact .inr ⟨hb, by simp⟩
    · have : ¬ n.val = m.val := fun e => hm (Fin.ext e.symm)
      exact .inl (by simp [this])
  · exact OtherBlocksSame.senderFrame ⟨rfl, rfl, rfl, rfl, rfl, rfl, rfl, rfl⟩

theorem senderFrame_takeBurstExpiry (k : SenderNo) (s : State) : SenderFrame s (takeBurstExpiry k s) := by
  unfold takeBurstExpiry
  split
  · split
    · exact SenderFrame.trans (t := s.setSender k (s.sender k).enterGap)
        (OtherBlocksSame.senderFrame ⟨rfl, rfl, rfl, rfl, rfl, rfl, rfl, rfl⟩) (senderFrame_recompose _ _)
    · exact .refl s
  · exact .refl s

/-! ### A gap expiry, case by case (R135) -/

/-- The state in which the head key has left the store and counts as sent (R135). -/
def State.keySent (k : SenderNo) (n : LineNo) (s : State) : State :=
  (s.setSender k { s.sender k with keysSent := bump (s.sender k).keysSent }).setLine n
    { s.line n with store := (s.line n).store.drop 1 }

/-- The state in which sender k, whose line has no key left, has been freed and granted on (R130, R135). -/
def State.gapFreed (k : SenderNo) (n : LineNo) (s : State) : State :=
  arbitrate true (freeSender k n (emptyReason (s.sender k).flushMark) s.now (s.keySent k n))

@[simp] theorem keySent_clk (k : SenderNo) (n : LineNo) (s : State) : (s.keySent k n).clk = s.clk := rfl

@[simp] theorem keySent_line (k : SenderNo) (n : LineNo) (s : State) :
    (s.keySent k n).line n = { s.line n with store := (s.line n).store.drop 1 } := by simp [State.keySent]

@[simp] theorem keySent_line_ne (k : SenderNo) {m n : LineNo} (s : State) (h : m ≠ n) :
    (s.keySent k n).line m = s.line m := by simp [State.keySent, h]

@[simp] theorem keySent_sender (k : SenderNo) (n : LineNo) (s : State) :
    (s.keySent k n).sender k = { s.sender k with keysSent := bump (s.sender k).keysSent } := by simp [State.keySent]

@[simp] theorem keySent_sender_ne {j k : SenderNo} (n : LineNo) (s : State) (h : j ≠ k) :
    (s.keySent k n).sender j = s.sender j := by simp [State.keySent, h]

theorem keySent_blocks (k : SenderNo) (n : LineNo) (s : State) : OtherBlocksSame s (s.keySent k n) :=
  ⟨rfl, rfl, rfl, rfl, rfl, rfl, rfl, rfl⟩

theorem expireGap_resend {k : SenderNo} {s : State} (n : LineNo) (h : (s.sender k).resendMark = true) :
    expireGap k n s = beginBurst k n (s.setSender k { s.sender k with resendMark := false }) := by
  simp [expireGap, h]

theorem expireGap_next {k : SenderNo} {n : LineNo} {s : State} (h : (s.sender k).resendMark = false)
    (hs : (s.line n).store.drop 1 ≠ []) : expireGap k n s
      = beginBurst k n ((s.keySent k n).setSender k { (s.keySent k n).sender k with flushMark := false }) := by
  have hs' : ¬ ((s.keySent k n).line n).store.isEmpty = true := by simpa using hs
  unfold expireGap
  rw [if_neg (by simp [h])]
  exact if_neg hs'

theorem expireGap_empty {k : SenderNo} {n : LineNo} {s : State} (h : (s.sender k).resendMark = false)
    (hs : (s.line n).store.drop 1 = []) : expireGap k n s
      = recompose (attachmentMoved s (s.gapFreed k n)) (s.gapFreed k n) := by
  have hs' : ((s.keySent k n).line n).store.isEmpty = true := by simp [hs]
  unfold expireGap
  rw [if_neg (by simp [h])]
  exact if_pos hs'

/-- A gap expiry sends the head key again, goes on to the next key, or frees its sender. -/
theorem expireGap_cases (k : SenderNo) (n : LineNo) (s : State) :
    expireGap k n s = beginBurst k n (s.setSender k { s.sender k with resendMark := false })
      ∨ expireGap k n s
        = beginBurst k n ((s.keySent k n).setSender k { (s.keySent k n).sender k with flushMark := false })
      ∨ expireGap k n s = recompose (attachmentMoved s (s.gapFreed k n)) (s.gapFreed k n) := by
  cases h : (s.sender k).resendMark
  · by_cases hs : (s.line n).store.drop 1 = []
    · exact .inr (.inr (expireGap_empty h hs))
    · exact .inr (.inl (expireGap_next h hs))
  · exact .inl (expireGap_resend n h)

theorem gapFreed_blocks (k : SenderNo) (n : LineNo) (s : State) : OtherBlocksSame s (s.gapFreed k n) := by
  exact ((keySent_blocks k n s).trans (freeSender_spec k n _ s.now (s.keySent k n)).1).trans (arbitrate_event true _).1

theorem senderFrame_expireGap (k : SenderNo) (n : LineNo) (s : State) : SenderFrame s (expireGap k n s) := by
  rcases expireGap_cases k n s with h | h | h <;> rw [h]
  · exact (senderFrame_setSender k _ s).trans (senderFrame_beginBurst k n _)
  · exact ((keySent_blocks k n s).senderFrame.trans (senderFrame_setSender k _ _)).trans (senderFrame_beginBurst k n _)
  · exact (gapFreed_blocks k n s).senderFrame.trans (senderFrame_recompose _ _)

theorem senderFrame_takeGapExpiry (k : SenderNo) (s : State) : SenderFrame s (takeGapExpiry k s) := by
  unfold takeGapExpiry
  split
  · split
    · exact senderFrame_expireGap k _ s
    · exact .refl s
  · exact .refl s

theorem senderFrame_burstStart {k : SenderNo} {s t : State} (h : execBurstStart k s = .next t) : SenderFrame s t := by
  unfold execBurstStart at h
  split at h
  · exact whenDue_keeps h (.refl s) fun _ => senderFrame_beginBurst k _ s
  · cases h
    exact .refl s

/-! ### The states of the senders (R140, R141) -/

/-- Every sender is in a state that the clock allows. -/
def SendersFit (s : State) : Prop := ∀ k, (s.sender k).state.Fits s.clk.state

/-- A sender in a burst or a gap stands under a locked clock. -/
theorem SenderState.Fits.locked {x : SenderState} {c : ClockState} (h : x.Fits c) (hx : x = .on ∨ x = .gap) :
    c = .locked := by
  rcases hx with rfl | rfl <;> simpa [SenderState.Fits] using h

theorem fits_locked {x : SenderState} (h : x ≠ .paused) : x.Fits .locked := .inr (by simpa using h)

theorem fits_unlocked {x : SenderState} {c : ClockState} (hc : c ≠ .locked) (h : x = .free ∨ x = .paused) : x.Fits c :=
  h.imp_right fun h => by simp [h, hc]

theorem SendersFit.congr {s t : State} (h : SendersFit s) (hc : t.clk.state = s.clk.state)
    (hk : ∀ k, (t.sender k).state = (s.sender k).state ∨ (t.sender k).state.Fits s.clk.state) : SendersFit t := fun k => by
  rw [hc]
  rcases hk k with hk | hk
  · rw [hk]
    exact h k
  · exact hk

theorem SendersFit.clockSame {s t : State} (h : SendersFit s) (ht : ClockSame s t) : SendersFit t :=
  h.congr (by rw [ht.clk]) ht.fits

/-- A step that keeps the clock's state and the pool. -/
theorem SendersFit.of_pool {s t : State} (h : SendersFit s) (hp : t.pool = s.pool) (hc : t.clk.state = s.clk.state) :
    SendersFit t := h.congr hc fun k => .inl (by simp [State.sender, hp])

theorem SendersFit.setSender {s : State} {k : SenderNo} {x : Sender} (h : SendersFit s)
    (hx : x.state = (s.sender k).state ∨ x.state.Fits s.clk.state) : SendersFit (s.setSender k x) :=
  h.congr rfl fun j => by
    by_cases hj : j = k
    · simpa [hj] using hx
    · exact .inl (by simp [hj])

theorem SendersFit.recompose {s : State} (h : SendersFit s) (moved : LineNo → Bool) : SendersFit (recompose moved s) :=
  h.of_pool (by rw [(recompose_spec moved s).1]) (by rw [(recompose_spec moved s).1])

theorem advance_state (x : Sender) : x.advance.state = x.state := by
  unfold Sender.advance
  split <;> rfl

/-- A burst begins under a locked clock alone. -/
theorem SendersFit.beginBurst {k : SenderNo} {s : State} (h : SendersFit s) (n : LineNo) (hl : s.clk.state = .locked) :
    SendersFit (beginBurst k n s) := by
  have hon : SenderState.Fits .on s.clk.state := hl ▸ fits_locked (by simp)
  simp only [Machine.beginBurst]
  split
  · exact (h.setSender (k := k) (x := ((s.sender k).startBurst ((s.line n).store.head?.map (·.key))).advance)
      (.inr (by rw [advance_state]; exact hon))).of_pool rfl rfl
  · exact h.setSender (.inr hon)

theorem SendersFit.burstStart {k : SenderNo} {s t : State} (h : SendersFit s) (he : execBurstStart k s = .next t) :
    SendersFit t := by
  unfold execBurstStart at he
  split at he
  · refine whenDue_keeps he h fun hd => h.beginBurst _ ((h k).locked (.inl ?_))
    simp only [Bool.and_eq_true, beq_iff_eq] at hd
    exact hd.1.1.2
  · cases he
    exact h

theorem SendersFit.takeBurstExpiry {s : State} (h : SendersFit s) (k : SenderNo) : SendersFit (takeBurstExpiry k s) := by
  unfold Machine.takeBurstExpiry
  split
  · split
    · rename_i hd
      simp only [burstExpired, Bool.and_eq_true, beq_iff_eq] at hd
      have hl := (h k).locked (.inl hd.2.1.1)
      exact (h.setSender (.inr (hl ▸ fits_locked (by simp [Sender.enterGap])))).recompose _
    · exact h
  · exact h

theorem SendersFit.keySent {s : State} (h : SendersFit s) (k : SenderNo) (n : LineNo) : SendersFit (s.keySent k n) :=
  h.congr rfl fun j => .inl <| by
    by_cases hj : j = k
    · simp [hj]
    · simp [hj]

theorem SendersFit.freeSender {s : State} (h : SendersFit s) (k : SenderNo) (n : LineNo) (r : SendReason) (d : DevTime) :
    SendersFit (freeSender k n r d s) := by
  obtain ⟨⟨-, -, -, -, -, -, hc, -⟩, -, -, -, hk⟩ := freeSender_spec k n r d s
  refine h.congr (by rw [hc]) fun j => ?_
  by_cases hj : j = k
  · exact .inr (.inl (by rw [hj, hk]; rfl))
  · exact .inl (by simp [Machine.freeSender, detach, hj])

theorem SendersFit.gapFreed {s : State} (h : SendersFit s) (k : SenderNo) (n : LineNo) : SendersFit (s.gapFreed k n) :=
  ((h.keySent k n).freeSender k n _ s.now).clockSame (lineStep_arbitrate true n _).clockSame

theorem SendersFit.expireGap {k : SenderNo} {s : State} (h : SendersFit s) (n : LineNo) (hg : (s.sender k).state = .gap) :
    SendersFit (expireGap k n s) := by
  have hl := (h k).locked (.inr hg)
  rcases expireGap_cases k n s with he | he | he <;> rw [he]
  · have h1 : SendersFit (s.setSender k { s.sender k with resendMark := false }) := h.setSender (.inl rfl)
    exact h1.beginBurst n hl
  · have h1 : SendersFit ((s.keySent k n).setSender k { (s.keySent k n).sender k with flushMark := false }) :=
      (h.keySent k n).setSender (.inl rfl)
    exact h1.beginBurst n hl
  · exact (h.gapFreed k n).recompose _

theorem SendersFit.takeGapExpiry {s : State} (h : SendersFit s) (k : SenderNo) : SendersFit (takeGapExpiry k s) := by
  unfold Machine.takeGapExpiry
  split
  · split
    · rename_i hd
      simp only [gapExpired, Bool.and_eq_true, beq_iff_eq] at hd
      exact h.expireGap _ hd.2.1
    · exact h
  · exact h

theorem SendersFit.takeAllExpiries {s : State} (h : SendersFit s) (ks : List SenderNo) :
    SendersFit (takeAllExpiries ks s) := by
  induction ks generalizing s with
  | nil => exact h
  | cons k rest ih => exact ih ((h.takeBurstExpiry k).takeGapExpiry k)

theorem SendersFit.expiriesBeforeLoss {s : State} (h : SendersFit s) : SendersFit (expiriesBeforeLoss s) := by
  unfold Machine.expiriesBeforeLoss
  split
  · exact h.takeAllExpiries _
  · exact h

theorem SendersFit.tickTaken {s t : State} (h : SendersFit s) (ht : TickTaken s t) (hc : t.clk.state = s.clk.state) :
    SendersFit t := by
  obtain ⟨-, -, -, hk, -⟩ := ht
  exact h.congr hc fun k => .inl (by rw [hk])

theorem SendersFit.startFrame {s : State} (h : SendersFit s) : SendersFit (startFrame s) := by
  obtain ⟨hc, -⟩ := startFrame_clock s
  by_cases hf : (s.clk.frame + 1) % 4 = 0
  · exact h.tickTaken (startFrame_boundary s hf).1 hc
  · obtain ⟨⟨-, hp, -⟩, -⟩ := startFrame_inside s hf
    exact h.of_pool hp hc

theorem SendersFit.composeFrame {s : State} (h : SendersFit s) : SendersFit (composeFrame s) := by
  refine h.congr rfl fun k => .inl ?_
  have hk : (Machine.composeFrame s).sender k = advanceSounding s (s.sender k) := sender_mapSenders s (advanceSounding s) k
  rw [hk]
  unfold advanceSounding
  split
  · split
    · split
      · exact advance_state _
      · rfl
    · rfl
  · rfl

/-- A change of clock state pauses the senders, or has them go on (R140, R141). -/
theorem SendersFit.changeClock {s : State} (h : SendersFit s) (st : ClockState) : SendersFit (changeClock st s) := by
  obtain ⟨hc, -, -, -, -, -, -, -, -, -, -, -, hk⟩ := changeClock_spec st s
  intro k
  rw [hc, hk]
  by_cases hst : st = .locked
  · rw [if_pos hst]
    subst hst
    refine fits_locked ?_
    unfold regapSender
    split
    · simp [Sender.enterGap]
    · assumption
  · rw [if_neg hst]
    by_cases hl : s.clk.state = .locked
    · rw [if_pos hl]
      refine fits_unlocked hst ?_
      unfold pauseSender
      cases hx : (s.sender k).state <;> simp [hx]
    · rw [if_neg hl]
      refine fits_unlocked hst ((h k).imp_right fun h => h.2 hl)

end Sys2Proof.Machine
end

section
/-! SUPPORT. The laws of the clock and of the highway, command by command (R140, R141, R145, R146, R156, R204 to R211). -/

namespace Sys2Proof.Machine

/-! ### A clock within its ranges -/

/-- ClockLaws of one clock, but for the missing count. -/
structure Clock.Sound (c : Clock) : Prop where
  frame : c.frame ≤ 3
  tick : c.tick ≤ 1999
  qualCount : c.qualCount ≤ 1024
  dividerMin : 10036 ≤ c.divider
  dividerMax : c.divider ≤ 10444
  free : c.state = .free → c.lockedSince = false
  nominal : c.lockedSince = false → c.divider = 10240
  since : c.state = .locked → c.lockedSince = true
  lockDue : c.lockDue = true → c.state = .qualifying ∧ c.qualCount = 1024
  window : c.window ≠ none → c.state = .locked
  ticks : ∀ w, c.window = some w → w.ticks < 256
  windowDone : c.windowDone ≠ none → c.lockedSince = true
  rollover : c.rolloverDue = true → c.tick = 1999
  setting : ∀ p, c.pendingTime = some p → c.timeTakenUp = some p.edition

theorem clockLaws_iff {s : State} :
    ClockLaws s ↔ s.clk.Sound ∧ s.clk.missing ≤ 4 ∧ (s.clk.state = .locked → s.clk.missing ≤ 3) := by
  constructor
  · rintro ⟨h1, h2, h3, h4, h5, h6, h7, h8, h9, h10, h11, h12, h13, h14, h15, h16⟩
    exact ⟨⟨h1, h2, h3, h6, h7, h8, h9, h10, h11, h12, h13, h14, h15, h16⟩, h4, h5⟩
  · rintro ⟨⟨h1, h2, h3, h6, h7, h8, h9, h10, h11, h12, h13, h14, h15, h16⟩, h4, h5⟩
    exact ⟨h1, h2, h3, h4, h5, h6, h7, h8, h9, h10, h11, h12, h13, h14, h15, h16⟩

/-- A clock whose missing count does not rise keeps its laws if it stays within its other ranges. -/
theorem ClockLaws.keep {s t : State} (h : ClockLaws s) (hc : t.clk.Sound) (hm : t.clk.missing = s.clk.missing)
    (hl : t.clk.state = .locked → s.clk.state = .locked) : ClockLaws t := by
  obtain ⟨-, h4, h3⟩ := clockLaws_iff.1 h
  exact clockLaws_iff.2 ⟨hc, by rwa [hm], fun hs => by rw [hm]; exact h3 (hl hs)⟩

theorem ClockLaws.congr {s t : State} (h : ClockLaws s) (hc : t.clk = s.clk) : ClockLaws t := by
  unfold ClockLaws
  rwa [hc]

/-! ### Steps of the clock that stay within its ranges -/

theorem Clock.Sound.passTo {c : Clock} (h : c.Sound) (cycle : Nat) : (c.passTo cycle).Sound := { h with }

theorem Clock.Sound.roll {c : Clock} (h : c.Sound) : c.roll.Sound := by
  unfold Clock.roll
  split
  · exact { h with tick := Nat.zero_le _, rollover := fun hd => by simp at hd, setting := fun p hp => by simp at hp }
  · exact { h with tick := Nat.zero_le _, rollover := fun hd => by simp at hd }

theorem Clock.Sound.settle {c : Clock} (h : c.Sound) : c.settle.Sound := by
  unfold Clock.settle
  split
  · exact h.roll
  · exact h

theorem Clock.Sound.advanceTick {c : Clock} (h : c.Sound) : c.advanceTick.Sound := by
  have hs := h.settle
  have hd := settle_rolloverDue c
  simp only [Clock.advanceTick]
  split
  · rename_i ht
    exact { hs with tick := ht, rollover := fun hd' => by simp [hd] at hd' }
  · rename_i ht
    exact { hs with rollover := fun _ => Nat.le_antisymm hs.tick (Nat.le_of_not_lt ht) }

theorem Clock.Sound.windowBoundary {c : Clock} (h : c.Sound) : c.windowBoundary.Sound := by
  unfold Clock.windowBoundary
  split
  · rename_i w hw
    have hl : c.state = .locked := h.window (by simp [hw])
    split
    · exact { h with window := fun _ => hl, windowDone := fun _ => h.since hl, ticks := fun w' hw' => by cases hw'; decide }
    · rename_i ht
      exact { h with window := fun _ => hl, ticks := fun w' hw' => by cases hw'; exact Nat.lt_of_not_le ht }
  · exact h

/-- A time setting under another edition waits for the rollover (R212). -/
theorem Clock.Sound.takeSetting {c : Clock} (h : c.Sound) (edition : Byte) (seconds : Word) :
    (c.takeSetting edition seconds).Sound := by
  unfold Clock.takeSetting
  split
  · exact h
  · exact { h with setting := fun p hp => by cases hp; rfl }

/-- The frame number goes on, and outside a boundary nothing else of the clock does (R204). -/
theorem startFrame_clk (s : State) : (startFrame s).clk
    = if (s.clk.frame + 1) % 4 = 0 then
        Clock.windowBoundary { s.clk with frame := (s.clk.frame + 1) % 4, frameAge := 0 }.advanceTick
      else { s.clk with frame := (s.clk.frame + 1) % 4, frameAge := 0 } := by
  by_cases h : (s.clk.frame + 1) % 4 = 0
  · simp only [startFrame, h, if_true]
    exact (tickBoundary_spec _).2.2.2.2.2.2.2
  · simp only [startFrame, h, if_false]
    rfl

theorem Clock.Sound.startFrame {s : State} (h : s.clk.Sound) : (startFrame s).clk.Sound := by
  have h1 : Clock.Sound { s.clk with frame := (s.clk.frame + 1) % 4, frameAge := 0 } :=
    { h with frame := Nat.le_of_lt_succ (Nat.mod_lt _ (by decide)) }
  rw [startFrame_clk]
  split
  · exact h1.advanceTick.windowBoundary
  · exact h1

/-- A frame start keeps the laws of the clock. -/
theorem ClockLaws.startFrame {s : State} (h : ClockLaws s) : ClockLaws (startFrame s) := by
  obtain ⟨hst, -, -, hm, -⟩ := startFrame_clock s
  exact h.keep (clockLaws_iff.1 h).1.startFrame hm fun hl => hst ▸ hl

theorem changeClock_clk (st : ClockState) (s : State) : (changeClock st s).clk = { s.clk with state := st } :=
  (changeClock_spec st s).1

theorem changeClock_state (st : ClockState) (s : State) : (changeClock st s).clk.state = st := by rw [changeClock_clk]

/-- A clock that is in no lock changes to another state out of lock. -/
theorem Clock.Sound.toState {c : Clock} (h : c.Sound) {st : ClockState} (hst : st ≠ .locked) (hd : c.lockDue = false)
    (hw : c.window = none) (hf : st = .free → c.lockedSince = false) : Clock.Sound { c with state := st } :=
  { h with
    free := hf
    since := fun hl => absurd hl hst
    lockDue := fun hd' => absurd (hd.symm.trans hd') Bool.false_ne_true
    window := fun hw' => absurd hw hw' }

theorem learnedDivider_range (cycles : Nat) : 10036 ≤ learnedDivider cycles ∧ learnedDivider cycles ≤ 10444 := by
  unfold learnedDivider Config.dividerMin Config.dividerMax
  omega

theorem resetPart_clockLaws (cause : ResetCause) (part : Part) (s : State) : ClockLaws (resetPart cause part s) := by
  unfold ClockLaws
  simp [resetPart, State.reset]

/-- Outside a lock no divider window is open. -/
theorem Clock.Sound.window_none {c : Clock} (h : c.Sound) (hl : c.state ≠ .locked) : c.window = none := by
  by_contra hw
  exact hl (h.window hw)

/-- The entry to LOCKED (R207). -/
theorem enterLocked_clockLaws {s : State} (h : ClockLaws s) : ClockLaws (enterLocked s) := by
  have hs := (clockLaws_iff.1 h).1.startFrame
  have hc : (enterLocked s).clk = { (startFrame s).clk.lockMarks with state := .locked } := by
    rw [enterLocked_eq]
    exact (lockedBoundary_spec s).1
  refine clockLaws_iff.2 ?_
  rw [hc]
  refine ⟨?_, Nat.zero_le _, fun _ => Nat.zero_le _⟩
  exact { hs with
    free := fun hf => by cases hf
    nominal := fun hn => by cases hn
    since := fun _ => rfl
    lockDue := fun hd => by cases hd
    window := fun _ => rfl
    windowDone := fun _ => rfl
    ticks := fun w hw => by cases hw; decide }

/-- The cycles of a frame join the divider window of a locked clock. -/
theorem Clock.Sound.frameEnd {s : State} (h : s.clk.Sound) (missing : Nat) : (s.lockedFrameEnd missing).clk.Sound :=
  { h with
    window := fun hw => h.window fun hn => hw (by simp [State.lockedFrameEnd, hn])
    ticks := fun w hw => by
      obtain ⟨w', hw', rfl⟩ := Option.map_eq_some_iff.1 hw
      exact h.ticks w' hw' }

/-- The next frame of a locked clock, with a missing count that has not lost the reference (R208). -/
theorem nextLockedFrame_clockLaws {s : State} (h : s.clk.Sound) {missing : Nat} (hm : missing ≤ 3) :
    ClockLaws (nextLockedFrame missing s) := by
  obtain ⟨-, -, -, hm', -⟩ := nextLockedFrame_spec missing s
  refine clockLaws_iff.2 ⟨?_, by rw [hm']; omega, fun _ => by rw [hm']; exact hm⟩
  rw [nextLockedFrame_eq]
  exact (h.frameEnd missing).startFrame

theorem qualifyEdge_clockLaws {s : State} (h : ClockLaws s) (hq : s.clk.state = .qualifying) :
    ClockLaws (qualifyEdge s) := by
  obtain ⟨hs, -⟩ := clockLaws_iff.1 h
  simp only [qualifyEdge]
  split
  · split
    · exact enterLocked_clockLaws h
    · refine h.keep ?_ rfl id
      refine { hs with qualCount := Nat.min_le_right _ _, lockDue := fun hd => ⟨hq, ?_⟩ }
      rcases Bool.or_eq_true_iff.1 hd with hd | hd
      · have := (hs.lockDue hd).2
        simp [this, Config.qualifyEdges]
      · exact beq_iff_eq.1 hd
  · refine h.keep ?_ rfl id
    exact { hs with qualCount := Nat.zero_le _, lockDue := fun hd => by cases hd }

theorem takeEdge_clockLaws {s : State} (h : ClockLaws s) : ClockLaws (takeEdge s) := by
  obtain ⟨hs, -⟩ := clockLaws_iff.1 h
  have hout : s.clk.state ≠ .locked → ClockLaws (changeClock .qualifying
      { s with clk := { s.clk with qualCount := 0, lockDue := false, spacing := 0 } }) := fun hl => by
    refine h.keep ?_ (by rw [changeClock_clk]) fun hq => ?_
    · rw [changeClock_clk]
      have h1 : Clock.Sound { s.clk with qualCount := 0, lockDue := false, spacing := 0 } :=
        { hs with qualCount := Nat.zero_le _, lockDue := fun hd => by cases hd }
      exact h1.toState (by decide) rfl (hs.window_none hl) fun hf => by cases hf
    · rw [changeClock_clk] at hq
      cases hq
  unfold takeEdge
  split
  · rename_i hf
    exact hout (by simp [hf])
  · rename_i hf
    exact hout (by simp [hf])
  · rename_i hq
    exact qualifyEdge_clockLaws h hq
  · unfold lockedEdge
    split
    · exact h
    · exact (nextLockedFrame_clockLaws hs (Nat.zero_le _)).congr rfl

/-- The loss of a reference in QUALIFYING (R206). -/
theorem qualifyTimeout_clockLaws {s t : State} (h : ClockLaws s) (he : execQualifyTimeout s = .next t) : ClockLaws t := by
  obtain ⟨hs, -⟩ := clockLaws_iff.1 h
  refine whenDue_keeps he h fun hd => ?_
  simp only [Bool.and_eq_true, beq_iff_eq] at hd
  have hq := hd.1.2
  have hlost : lostState s.clk ≠ .locked := by unfold lostState; split <;> simp
  refine h.keep ?_ (by rw [changeClock_clk]; rfl) fun hl => ?_
  · rw [changeClock_clk]
    have h1 : Clock.Sound { s.clk.passTo s.clk.lossCycle with qualCount := 0, lockDue := false } :=
      { hs with qualCount := Nat.zero_le _, lockDue := fun hd => by cases hd }
    refine h1.toState hlost rfl (hs.window_none (by simp [hq])) fun hf => ?_
    unfold lostState at hf
    split at hf
    · cases hf
    · rename_i hn
      exact Bool.eq_false_iff.2 hn
  · rw [changeClock_clk] at hl
    exact absurd hl hlost

/-- A filled frame, driven or not (R208). -/
theorem filledFrame_clockLaws {s t : State} (h : ClockLaws s) (he : execFilledFrame s = .next t) : ClockLaws t := by
  obtain ⟨hs, -, h3⟩ := clockLaws_iff.1 h
  refine whenDue_keeps he h fun hd => ?_
  simp only [Bool.and_eq_true, beq_iff_eq] at hd
  have hl := hd.2
  obtain ⟨⟨hst, -, -, hm, -⟩, ⟨-, -, hx, -⟩, -⟩ := filled_spec s
  obtain ⟨-, -, -, -, -, -, hc, -⟩ := expiriesBeforeLoss_blocks hx
  have hsound : s.filled.clk.Sound := (Clock.Sound.frameEnd (s := { s with clk := s.clk.passTo Config.maxSpacing })
    (hs.passTo _) _).startFrame
  change ClockLaws (if 4 ≤ s.clk.missing + 1 then loseReference (expiriesBeforeLoss s.filled) else composeFrame s.filled)
  split
  · have hclk : (loseReference (expiriesBeforeLoss s.filled)).clk
        = { s.filled.clk with state := .holdover, window := none, losses := s.filled.clk.losses + 1 } := by
      rw [(loseReference_spec (by rw [hc, hst, hl])).1, hc]
    refine clockLaws_iff.2 ?_
    rw [hclk]
    have hdue : s.filled.clk.lockDue = false := by
      by_contra hd'
      have hq := (hsound.lockDue (Bool.not_eq_false _ ▸ hd')).1
      simp [hst, hl] at hq
    have h1 : Clock.Sound { s.filled.clk with window := none, losses := s.filled.clk.losses + 1 } :=
      { hsound with window := fun hw => absurd rfl hw, ticks := fun w hw => by cases hw }
    refine ⟨h1.toState (by decide) hdue rfl (fun hf => by cases hf), ?_, fun hf => by cases hf⟩
    have := h3 hl
    rw [hm]
    omega
  · refine ClockLaws.congr (s := s.filled) ?_ rfl
    exact nextLockedFrame_clockLaws (hs.passTo _) (by omega)

theorem headerTakeUp_clockLaws {now : Bool} {s t : State} (h : ClockLaws s) (he : execHeaderTakeUp now s = .next t) :
    ClockLaws t := by
  obtain ⟨hs, -⟩ := clockLaws_iff.1 h
  unfold execHeaderTakeUp at he
  split at he
  · rename_i q _
    have h1 : ClockLaws (headerHandOver q.got s) := by
      have hm : ∀ c : Clock, (c.takeSetting (byteOf (q.got.getD 3 0) 1) (q.got.getD 4 0)).missing = c.missing
          ∧ (c.takeSetting (byteOf (q.got.getD 3 0) 1) (q.got.getD 4 0)).state = c.state := fun c => by
        unfold Clock.takeSetting
        split <;> exact ⟨rfl, rfl⟩
      exact h.keep (hs.settle.takeSetting _ _) ((hm _).1.trans (settle_missing _))
        fun hl => by rwa [← settle_state, ← (hm _).2]
    refine whenDue_keeps he h fun _ => ?_
    split
    · exact h1.congr rfl
    · exact h1.congr rfl
  · cases he
    exact h

theorem startUpHoldEnd_clockLaws {s t : State} (h : ClockLaws s) (he : execStartUpHoldEnd s = .next t) : ClockLaws t := by
  obtain ⟨hs, -⟩ := clockLaws_iff.1 h
  refine whenDue_keeps he h fun _ => ?_
  obtain ⟨-, -, -, -, -, -, -, hc⟩ := tickBoundary_spec { s with
    part := { s.part with phase := .working }, clk := { s.clk with frame := 0, frameAge := 0, spacing := 0 } }
  refine h.keep ?_ (by rw [hc]; simp) fun hl => ?_
  · rw [hc]
    have h1 : Clock.Sound { s.clk with frame := 0, frameAge := 0, spacing := 0 } := { hs with frame := Nat.zero_le _ }
    exact h1.advanceTick.windowBoundary
  · rw [hc] at hl
    simpa using hl

/-- Every command keeps the laws of the clock. -/
theorem exec_clockLaws {i : Instr} {s t : State} (h : ClockLaws s) (he : exec i s = .next t) : ClockLaws t := by
  obtain ⟨hs, -⟩ := clockLaws_iff.1 h
  by_cases hi : offClock i = true
  · exact h.congr (exec_clockSame hi he).clk
  cases i
  case powerOn => cases he; exact resetPart_clockLaws _ _ s
  case pinReset low => exact whenDue_keeps (show execPinReset low s = .next t from he) h fun _ => resetPart_clockLaws _ _ s
  case softReset => exact whenDue_keeps (show execSoftReset s = .next t from he) h fun _ => resetPart_clockLaws _ _ s
  case resetNReturnsHigh => cases he; exact h.congr rfl
  case supplyInOperatingRange => cases he; exact h.congr rfl
  case startUpHoldEnd => exact startUpHoldEnd_clockLaws h he
  case frameStart =>
    refine whenDue_keeps (show execFrameStart s = .next t from he) h fun _ => ClockLaws.startFrame ?_
    exact h.keep (hs.passTo _) rfl id
  case timeRollover =>
    refine whenDue_keeps (show execTimeRollover s = .next t from he) h fun _ => ?_
    exact h.keep hs.roll (roll_missing _) fun hl => by rwa [← roll_state]
  case xfsEdge cycle =>
    refine whenDue_keeps (show execXfsEdge cycle s = .next t from he) h fun _ => takeEdge_clockLaws ?_
    exact h.keep (hs.passTo _) rfl id
  case lockHandoverTimeout =>
    refine whenDue_keeps (show execLockHandoverTimeout s = .next t from he) h fun _ => ClockLaws.startFrame ?_
    exact h.keep { hs with qualCount := Nat.zero_le _, lockDue := fun hd => by cases hd } rfl id
  case qualifyTimeout => exact qualifyTimeout_clockLaws h he
  case filledFrame => exact filledFrame_clockLaws h he
  case dividerWindowClose =>
    simp only [exec, execDividerWindowClose] at he
    split at he
    · rename_i cycles hw
      obtain ⟨hmin, hmax⟩ := learnedDivider_range cycles
      have hsince := hs.windowDone (by simp [hw])
      refine whenDue_keeps he h fun _ => h.keep ?_ rfl id
      exact { hs with
        dividerMin := hmin
        dividerMax := hmax
        nominal := fun hn => absurd (hn.symm.trans hsince) Bool.false_ne_true
        windowDone := fun hw' => absurd rfl hw' }
    · cases he
      exact h
  case burstStart k => exact h.congr (senderFrame_burstStart he).clk
  case burstExpiry k =>
    cases he
    exact h.congr (senderFrame_takeBurstExpiry k s).clk
  case gapExpiry k =>
    cases he
    exact h.congr (senderFrame_takeGapExpiry k s).clk
  case lineSlotReceived n v =>
    exact whenDue_keeps (show execLineSlotReceived n v s = .next t from he) h fun _ => h.congr rfl
  case headerTakeUp now => exact headerTakeUp_clockLaws h he
  all_goals exact absurd rfl hi

/-! ### The highway and the senders of a locked clock -/

/-- What a frame holds before it is composed: the senders fit the clock's state, nothing is driven, and the delay lines are
whole (R140, R145, R146). -/
structure FrameOpen (s : State) : Prop where
  fits : SendersFit s
  working : s.part.phase ≠ .working → s.clk.state ≠ .locked
  undriven : ∀ n : LineNo, s.hwy.xtxd[n] = none
  delay : ∀ n : LineNo, s.hwy.delay[n].length = 32

theorem highwayLaws_iff {s : State} : HighwayLaws s ↔ SendersFit s ∧ (s.part.phase ≠ .working → s.clk.state ≠ .locked)
    ∧ (∀ n : LineNo, s.hwy.xtxd[n] = none ↔ s.clk.state ≠ .locked) ∧ ∀ n : LineNo, s.hwy.delay[n].length = 32 := by
  constructor
  · rintro ⟨hout, hin, hnone, hw, hsome, hd⟩
    refine ⟨fun k => ?_, hw, fun n => ⟨fun hn hl => hsome hl n hn, fun hl => hnone (.inr hl) n⟩, hd⟩
    by_cases hl : s.clk.state = .locked
    · exact hl ▸ fits_locked (hin hl k)
    · exact fits_unlocked hl (hout hl k)
  · rintro ⟨hf, hw, hx, hd⟩
    refine ⟨fun hl k => (hf k).imp_right fun h => h.2 hl, fun hl k hk => ?_, fun h n => (hx n).2 (h.elim hw id), hw,
      fun hl n hn => (hx n).1 hn hl, hd⟩
    rcases hf k with h | h
    · simp [h] at hk
    · exact h.1 hk hl

theorem HighwayLaws.fits {s : State} (h : HighwayLaws s) : SendersFit s := (highwayLaws_iff.1 h).1

theorem HighwayLaws.frameOpen {s : State} (h : HighwayLaws s) (hl : s.clk.state ≠ .locked) : FrameOpen s := by
  obtain ⟨hf, hw, hx, hd⟩ := highwayLaws_iff.1 h
  exact ⟨hf, hw, fun n => (hx n).2 hl, hd⟩

/-- Out of LOCKED a frame is not composed (R145). -/
theorem FrameOpen.unlocked {s : State} (h : FrameOpen s) (hl : s.clk.state ≠ .locked) : HighwayLaws s :=
  highwayLaws_iff.2 ⟨h.fits, h.working, fun n => ⟨fun _ => hl, fun _ => h.undriven n⟩, h.delay⟩

/-- In LOCKED a frame is composed (R145). -/
theorem FrameOpen.locked {s : State} (h : FrameOpen s) (hl : s.clk.state = .locked) : HighwayLaws (composeFrame s) := by
  obtain ⟨⟨-, -, -, -, -, -, -, hx, -⟩, -⟩ := composeFrame_spec s
  exact highwayLaws_iff.2 ⟨h.fits.composeFrame, h.working, fun n => ⟨fun hn => by simp [hx n] at hn, fun hn => absurd hl hn⟩,
    h.delay⟩

/-- A change of the clock alone that keeps its state. -/
theorem HighwayLaws.setClk {s : State} (h : HighwayLaws s) {c : Clock} (hc : c.state = s.clk.state) :
    HighwayLaws { s with clk := c } := by
  obtain ⟨hf, hw, hx, hd⟩ := highwayLaws_iff.1 h
  exact highwayLaws_iff.2 ⟨hf.of_pool rfl hc, hc ▸ hw, hc ▸ hx, hd⟩

/-- A change of the clock's state out of LOCKED, before the frame is composed. -/
theorem FrameOpen.changeClock {s : State} (h : FrameOpen s) {st : ClockState}
    (hst : st = .locked → s.part.phase = .working) : FrameOpen (changeClock st s) := by
  obtain ⟨hc, -, -, -, -, -, hh, -, hp, -⟩ := changeClock_spec st s
  refine ⟨h.fits.changeClock st, ?_, ?_, ?_⟩
  · rw [hc, hp]
    exact fun hw hl => hw (hst hl)
  · rw [hh]
    exact h.undriven
  · rw [hh]
    exact h.delay

/-- A frame starts with nothing driven (R145). -/
theorem HighwayLaws.startFrame {s : State} (h : HighwayLaws s) : FrameOpen (startFrame s) := by
  obtain ⟨hf, hw, -, hd⟩ := highwayLaws_iff.1 h
  obtain ⟨hst, -⟩ := startFrame_clock s
  obtain ⟨-, -, -, hdelay, hx, -⟩ := startFrame_frame s
  obtain ⟨-, -, hp, -⟩ := startFrame_blocks s
  exact ⟨hf.startFrame, by rwa [hp, hst], fun n => by rw [hx]; simp, by rwa [hdelay]⟩

theorem resetPart_highwayLaws (cause : ResetCause) (part : Part) (s : State) : HighwayLaws (resetPart cause part s) := by
  refine highwayLaws_iff.2 ⟨fun k => .inl ?_, fun _ => by simp [resetPart, State.reset], fun n => ?_, fun n => ?_⟩
  · simp [resetPart, State.reset, State.sender, Sender.reset]
  · simp [resetPart, State.reset]
  · simp [resetPart, State.reset]

theorem HighwayLaws.clockSame {s t : State} (h : HighwayLaws s) (ht : ClockSame s t) : HighwayLaws t := by
  obtain ⟨hf, hw, hx, hd⟩ := highwayLaws_iff.1 h
  exact highwayLaws_iff.2 ⟨hf.clockSame ht, by rwa [ht.part, ht.clk], by rwa [ht.hwy, ht.clk], by rwa [ht.hwy]⟩

/-- A boundary step of a sender composes slots of a driven frame again, and drives no other (R148, R156). -/
theorem HighwayLaws.senderFrame {s t : State} (h : HighwayLaws s) (ht : SenderFrame s t) (hf : SendersFit t) :
    HighwayLaws t := by
  obtain ⟨-, hw, hx, hd⟩ := highwayLaws_iff.1 h
  refine highwayLaws_iff.2 ⟨hf, by rwa [ht.part, ht.clk], fun n => ?_, by rw [ht.hwy]; exact hd⟩
  rw [ht.clk]
  rcases ht.slots n with hn | ⟨hb, hn⟩
  · rw [hn]
    exact hx n
  · simp only [boundaryFrame, Bool.and_eq_true, beq_iff_eq] at hb
    exact ⟨fun h => absurd h hn, fun hl => absurd hb.1.1.2 hl⟩

theorem afterCause_working (p : Part) : p.afterCause.phase = .working ↔ p.phase = .working := by
  unfold Part.afterCause
  split
  · rename_i hp
    simp [hp.1]
  · rfl

/-- A cause of a reset ends (R219). -/
theorem HighwayLaws.afterCause {s : State} (h : HighwayLaws s) {p : Part} (hp : p.phase = s.part.phase) :
    HighwayLaws { s with part := p.afterCause } := by
  obtain ⟨hf, hw, hx, hd⟩ := highwayLaws_iff.1 h
  exact highwayLaws_iff.2 ⟨hf.of_pool rfl rfl, fun hn => hw fun hs => hn ((afterCause_working p).2 (hp.trans hs)), hx, hd⟩

theorem startUpHoldEnd_highwayLaws {s t : State} (h : HighwayLaws s) (he : execStartUpHoldEnd s = .next t) :
    HighwayLaws t := by
  obtain ⟨hf, hw, hx, hd⟩ := highwayLaws_iff.1 h
  refine whenDue_keeps he h fun hdue => ?_
  obtain ⟨htick, -, hpart, -, -, hh, -, hc⟩ := tickBoundary_spec { s with
    part := { s.part with phase := .working }, clk := { s.clk with frame := 0, frameAge := 0, spacing := 0 } }
  refine highwayLaws_iff.2 ⟨?_, fun hn => absurd (by rw [hpart]) hn, ?_, ?_⟩
  · refine SendersFit.tickTaken ?_ htick ?_
    · exact hf.of_pool rfl rfl
    rw [hc]
    simp
  · rw [hh, hc]
    simpa using hx
  · rw [hh]
    exact hd

theorem enterLocked_highwayLaws {s : State} (h : HighwayLaws s) (hw : s.part.phase = .working) :
    HighwayLaws (enterLocked s) := by
  have ho := h.startFrame
  obtain ⟨-, -, hp, -⟩ := startFrame_blocks s
  have ho' : FrameOpen s.lockedBoundary := by
    refine FrameOpen.changeClock (s := { startFrame s with clk := (startFrame s).clk.lockMarks })
      ⟨ho.fits.of_pool rfl rfl, ho.working, ho.undriven, ho.delay⟩
      fun _ => ?_
    exact (congrArg Part.phase hp).trans hw
  rw [enterLocked_eq]
  exact ho'.locked (by rw [(lockedBoundary_spec s).1])

/-- The next frame of a locked clock, driven (R208). -/
theorem nextLockedFrame_frameOpen {s : State} (h : HighwayLaws s) (missing : Nat) :
    FrameOpen (nextLockedFrame missing s) := by
  rw [nextLockedFrame_eq]
  exact HighwayLaws.startFrame (h.setClk (c := (s.lockedFrameEnd missing).clk) rfl)

theorem takeEdge_highwayLaws {s : State} (h : HighwayLaws s) (hw : s.part.phase = .working) :
    HighwayLaws (takeEdge s) := by
  have hout : s.clk.state ≠ .locked → HighwayLaws (changeClock .qualifying
      { s with clk := { s.clk with qualCount := 0, lockDue := false, spacing := 0 } }) := fun hl => by
    refine FrameOpen.unlocked (FrameOpen.changeClock ?_ fun hq => by cases hq) (by rw [changeClock_state]; decide)
    exact HighwayLaws.frameOpen (h.setClk rfl) hl
  unfold takeEdge
  split
  · rename_i hf
    exact hout (by simp [hf])
  · rename_i hf
    exact hout (by simp [hf])
  · simp only [qualifyEdge]
    split
    · split
      · exact enterLocked_highwayLaws h hw
      · exact h.setClk rfl
    · exact h.setClk rfl
  · rename_i hl
    unfold lockedEdge
    split
    · exact h
    · exact (nextLockedFrame_frameOpen h 0).locked ((nextLockedFrame_spec 0 s).1.trans hl)

theorem qualifyTimeout_highwayLaws {s t : State} (h : HighwayLaws s) (he : execQualifyTimeout s = .next t) :
    HighwayLaws t := by
  refine whenDue_keeps he h fun hd => ?_
  simp only [Bool.and_eq_true, beq_iff_eq] at hd
  have hlost : lostState s.clk ≠ .locked := by unfold lostState; split <;> simp
  refine FrameOpen.unlocked (FrameOpen.changeClock ?_ fun hl => absurd hl hlost) (by rw [changeClock_state]; exact hlost)
  exact HighwayLaws.frameOpen (h.setClk rfl) (by simp [Clock.passTo, hd.1.2])

/-- The expiries taken before a loss find the frame undriven, and leave it so (R140, R156). -/
theorem FrameOpen.expiriesBeforeLoss {s : State} (h : FrameOpen s) : FrameOpen (expiriesBeforeLoss s) := by
  obtain ⟨-, hp, -, -, -, hh, hc, -⟩ := expiriesBeforeLoss_blocks h.undriven
  exact ⟨h.fits.expiriesBeforeLoss, by rw [hp, hc]; exact h.working, by rw [hh]; exact h.undriven, by
    rw [hh]; exact h.delay⟩

/-- The loss of the reference leaves the frame undriven (R156). -/
theorem FrameOpen.loseReference {s : State} (h : FrameOpen s) : HighwayLaws (loseReference s) := by
  have h1 : FrameOpen { s with clk := { s.clk with window := none, losses := s.clk.losses + 1 } } :=
    ⟨h.fits.of_pool rfl rfl, h.working, h.undriven, h.delay⟩
  have h2 := h1.changeClock (st := .holdover) fun hq => by cases hq
  exact h2.unlocked (by rw [changeClock_state]; decide)

theorem filledFrame_highwayLaws {s t : State} (h : HighwayLaws s) (he : execFilledFrame s = .next t) : HighwayLaws t := by
  refine whenDue_keeps he h fun hd => ?_
  simp only [Bool.and_eq_true, beq_iff_eq] at hd
  have h1 : HighwayLaws { s with clk := s.clk.passTo Config.maxSpacing } := h.setClk rfl
  have ho : FrameOpen s.filled := nextLockedFrame_frameOpen h1 (s.clk.missing + 1)
  change HighwayLaws (if 4 ≤ s.clk.missing + 1 then loseReference (expiriesBeforeLoss s.filled) else composeFrame s.filled)
  split
  · exact ho.expiriesBeforeLoss.loseReference
  · obtain ⟨⟨hst, -⟩, -⟩ := filled_spec s
    exact ho.locked (hst.trans hd.2)

theorem lineSlotReceived_highwayLaws {n : LineNo} {v : Sample} {s t : State} (h : HighwayLaws s)
    (he : execLineSlotReceived n v s = .next t) : HighwayLaws t := by
  refine whenDue_keeps he h fun _ => ?_
  obtain ⟨hf, hw, hx, hd⟩ := highwayLaws_iff.1 h
  refine highwayLaws_iff.2 ⟨hf.of_pool rfl rfl, hw, hx, fun m => ?_⟩
  by_cases hm : n.val = m.val
  · have := hd n
    simp [hm, shiftDelay]
    simp [hm] at this
    omega
  · simpa [hm] using hd m

theorem headerTakeUp_highwayLaws {now : Bool} {s t : State} (h : HighwayLaws s) (he : execHeaderTakeUp now s = .next t) :
    HighwayLaws t := by
  unfold execHeaderTakeUp at he
  split at he
  · rename_i q _
    have h1 : HighwayLaws (headerHandOver q.got s) := by
      have h2 : HighwayLaws { s with
          clk := s.clk.settle.takeSetting (byteOf (q.got.getD 3 0) 1) (q.got.getD 4 0) } := h.setClk (by
        unfold Clock.takeSetting
        split
        · exact settle_state _
        · exact settle_state _)
      exact h2.clockSame .of_pool
    refine whenDue_keeps he h fun _ => ?_
    split
    · exact h1.clockSame .of_pool
    · exact h1.clockSame .of_pool
  · cases he
    exact h

/-- Every command keeps the laws of the highway. -/
theorem exec_highwayLaws {i : Instr} {s t : State} (h : HighwayLaws s) (he : exec i s = .next t) : HighwayLaws t := by
  by_cases hi : offClock i = true
  · exact h.clockSame (exec_clockSame hi he)
  cases i
  case powerOn => cases he; exact resetPart_highwayLaws _ _ s
  case pinReset low => exact whenDue_keeps (show execPinReset low s = .next t from he) h fun _ => resetPart_highwayLaws _ _ s
  case softReset => exact whenDue_keeps (show execSoftReset s = .next t from he) h fun _ => resetPart_highwayLaws _ _ s
  case resetNReturnsHigh => cases he; exact h.afterCause rfl
  case supplyInOperatingRange => cases he; exact h.afterCause rfl
  case startUpHoldEnd => exact startUpHoldEnd_highwayLaws h he
  case frameStart =>
    refine whenDue_keeps (show execFrameStart s = .next t from he) h fun hd => ?_
    simp only [Bool.and_eq_true, bne_iff_ne] at hd
    refine FrameOpen.unlocked (HighwayLaws.startFrame (h.setClk rfl)) ?_
    rw [(startFrame_clock _).1]
    exact hd.1.2
  case timeRollover =>
    exact whenDue_keeps (show execTimeRollover s = .next t from he) h fun _ => h.setClk (roll_state _)
  case xfsEdge cycle =>
    refine whenDue_keeps (show execXfsEdge cycle s = .next t from he) h fun hd => ?_
    simp only [Bool.and_eq_true] at hd
    exact takeEdge_highwayLaws (h.setClk rfl) (working_iff.1 hd.1.1)
  case lockHandoverTimeout =>
    refine whenDue_keeps (show execLockHandoverTimeout s = .next t from he) h fun hd => ?_
    simp only [Bool.and_eq_true, Clock.heldOpen, beq_iff_eq] at hd
    refine FrameOpen.unlocked (HighwayLaws.startFrame (h.setClk rfl)) ?_
    rw [(startFrame_clock _).1]
    simp [Clock.passTo, hd.2.1.1]
  case qualifyTimeout => exact qualifyTimeout_highwayLaws h he
  case filledFrame => exact filledFrame_highwayLaws h he
  case dividerWindowClose =>
    simp only [exec, execDividerWindowClose] at he
    split at he
    · exact whenDue_keeps he h fun _ => h.setClk rfl
    · cases he
      exact h
  case burstStart k => exact h.senderFrame (senderFrame_burstStart he) (h.fits.burstStart he)
  case burstExpiry k =>
    cases he
    exact h.senderFrame (senderFrame_takeBurstExpiry k s) (h.fits.takeBurstExpiry k)
  case gapExpiry k =>
    cases he
    exact h.senderFrame (senderFrame_takeGapExpiry k s) (h.fits.takeGapExpiry k)
  case lineSlotReceived n v => exact lineSlotReceived_highwayLaws h he
  case headerTakeUp now => exact headerTakeUp_highwayLaws h he
  all_goals exact absurd rfl hi

/-- Settles O60: each command keeps either law. -/
theorem clockAndHighwayLawsKept : Obligations.ClockAndHighwayLawsKept := by
  intro s t hc hh hst
  unfold step at hst
  split at hst
  · rename_i c rest _
    have hc' : ClockLaws { s with pending := rest } := hc.congr rfl
    have hh' : HighwayLaws { s with pending := rest } := hh.clockSame .of_pool
    exact ⟨exec_clockLaws hc' hst, exec_highwayLaws hh' hst⟩
  · cases hst
    exact ⟨hc, hh⟩

end Sys2Proof.Machine
end

section
/-! SUPPORT. Changes of clock state and their records (R192, R209), with the SEND_DONE records of gap expiries that a loss finds
on its own boundary (R140, R142). -/

namespace Sys2Proof.Machine

/-! ### Records in staging or in the gap count -/

/-- Records have gone into staging or the gap count, in order, whatever else has moved in the Journal Unit (R192). -/
def Staged (rs : List Record) (s t : State) : Prop :=
  t.jnl.staging = (rs.foldl JournalUnit.stage s.jnl).staging ∧ t.jnl.gap = (rs.foldl JournalUnit.stage s.jnl).gap

/-- Where a record goes depends on staging and the gap count alone. -/
theorem stages_congr {j j' : JournalUnit} (rs : List Record) (hs : j'.staging = j.staging) (hg : j'.gap = j.gap) :
    (rs.foldl JournalUnit.stage j').staging = (rs.foldl JournalUnit.stage j).staging
      ∧ (rs.foldl JournalUnit.stage j').gap = (rs.foldl JournalUnit.stage j).gap := by
  induction rs generalizing j j' with
  | nil => exact ⟨hs, hg⟩
  | cons r rest ih =>
    refine ih ?_ ?_
    · unfold JournalUnit.stage
      rw [hs]
      split
      · rfl
      · rfl
    · unfold JournalUnit.stage
      rw [hs]
      split
      · exact hg
      · exact congrArg bump hg

theorem Recorded.staged {rs : List Record} {s t : State} (h : Recorded rs s t) : Staged rs s t := by
  obtain ⟨hj, -⟩ := h
  rw [Staged, hj]
  exact ⟨rfl, rfl⟩

theorem Staged.trans {rs rs' : List Record} {s t u : State} (h : Staged rs s t) (h' : Staged rs' t u) :
    Staged (rs ++ rs') s u := by
  obtain ⟨hs, hg⟩ := stages_congr rs' h.1 h.2
  rw [Staged, List.foldl_append]
  exact ⟨h'.1.trans hs, h'.2.trans hg⟩

theorem startFrame_staged (s : State) : Staged [] s (startFrame s) := by
  by_cases h : (s.clk.frame + 1) % 4 = 0
  · obtain ⟨⟨-, -, -, -, -, -, hj, -⟩, -⟩ := startFrame_boundary s h
    rw [Staged, hj]
    exact ⟨rfl, rfl⟩
  · obtain ⟨⟨-, -, -, hj, -⟩, -⟩ := startFrame_inside s h
    rw [Staged, hj]
    exact ⟨rfl, rfl⟩

/-! ### One change of clock state -/

/-- A change of clock state with its record, after the records given, and its attention bit (R209). -/
structure ClockChanged (first : List Record) (s t : State) : Prop where
  staged : Staged (first ++ [⟨none, t.now, .clock t.clk.state⟩]) s t
  regs : t.regs = { s.regs with attention := s.regs.attention ||| 8 }

theorem changeClock_now (st : ClockState) (s : State) : (changeClock st s).now = s.now := by
  unfold State.now
  rw [changeClock_clk]
  exact now_congr rfl rfl rfl rfl

theorem changeClock_changed {first : List Record} {s u : State} (st : ClockState) (hu : Staged first s u)
    (hr : u.regs = s.regs) : ClockChanged first s (changeClock st u) := by
  obtain ⟨-, hrec, hregs, -⟩ := changeClock_spec st u
  refine ⟨?_, by rw [hregs, hr]; rfl⟩
  rw [changeClock_now, changeClock_state]
  exact hu.trans hrec.staged

theorem ClockChanged.congr {first : List Record} {s t t' : State} (h : ClockChanged first s t) (hj : t'.jnl = t.jnl)
    (hc : t'.clk = t.clk) (hr : t'.regs = t.regs) : ClockChanged first s t' := by
  have hn : t'.now = t.now := by rw [State.now, State.now, hc]
  refine ⟨?_, hr.trans h.regs⟩
  rw [Staged, hj, hn, hc]
  exact h.staged

/-! ### The expiries that a loss finds on its boundary (R140, R142) -/

/-- A SEND_DONE record of a sender freed at a gap expiry, dated to d. -/
def IsGapDone (d : DevTime) (r : Record) : Prop :=
  ∃ n k sent reason, r = ⟨some n, d, .sendDone k sent reason⟩ ∧ reason ≠ .cut

theorem emptyReason_ne_cut (b : Bool) : emptyReason b ≠ .cut := by cases b <;> simp [emptyReason]

theorem setSender_recorded (k : SenderNo) (x : Sender) (s : State) : Recorded [] s (s.setSender k x) :=
  recorded_nil.2 ⟨rfl, rfl⟩

theorem beginBurst_recorded (k : SenderNo) (n : LineNo) (s : State) : Recorded [] s (beginBurst k n s) := by
  simp only [recorded_nil, beginBurst]
  split
  · exact ⟨rfl, rfl⟩
  · exact ⟨rfl, rfl⟩

theorem gapFreed_recorded (k : SenderNo) (n : LineNo) (s : State) :
    Recorded [sendDone k n (emptyReason (s.sender k).flushMark) s.now (s.keySent k n)] s (s.gapFreed k n) := by
  obtain ⟨-, -, hr, -⟩ := freeSender_spec k n (emptyReason (s.sender k).flushMark) s.now (s.keySent k n)
  have h0 : Recorded [] s (s.keySent k n) := recorded_nil.2 ⟨rfl, rfl⟩
  exact (h0.trans hr).trans (arbitrate_event true _).recorded

theorem recompose_recorded (moved : LineNo → Bool) (s : State) : Recorded [] s (recompose moved s) := by
  rw [(recompose_spec moved s).1]
  exact recorded_nil.2 ⟨rfl, rfl⟩

theorem expireGap_recorded (k : SenderNo) (n : LineNo) (s : State) :
    ∃ rs, Recorded rs s (expireGap k n s) ∧ ∀ r ∈ rs, IsGapDone s.now r := by
  rcases expireGap_cases k n s with h | h | h <;> rw [h]
  · exact ⟨[], (setSender_recorded k _ s).trans (beginBurst_recorded k n _), by simp⟩
  · have h1 : Recorded [] s (s.keySent k n) := recorded_nil.2 ⟨rfl, rfl⟩
    exact ⟨[], (h1.trans (setSender_recorded k _ _)).trans (beginBurst_recorded k n _), by simp⟩
  · refine ⟨_, (gapFreed_recorded k n s).trans (recompose_recorded _ _), fun r hr => ?_⟩
    rw [List.append_nil, List.mem_singleton] at hr
    exact ⟨n, k, _, _, hr, emptyReason_ne_cut _⟩

theorem takeExpiries_recorded (k : SenderNo) (s : State) :
    ∃ rs, Recorded rs s (takeExpiries k s) ∧ ∀ r ∈ rs, IsGapDone s.now r := by
  have hb : Recorded [] s (takeBurstExpiry k s) := by
    unfold takeBurstExpiry
    split
    · split
      · exact (setSender_recorded k _ s).trans (recompose_recorded _ _)
      · exact .refl s
    · exact .refl s
  have hn : (takeBurstExpiry k s).now = s.now := congrArg Clock.now (senderFrame_takeBurstExpiry k s).clk
  have hg : ∃ rs, Recorded rs (takeBurstExpiry k s) (takeGapExpiry k (takeBurstExpiry k s))
      ∧ ∀ r ∈ rs, IsGapDone (takeBurstExpiry k s).now r := by
    generalize takeBurstExpiry k s = u
    unfold takeGapExpiry
    split
    · split
      · exact expireGap_recorded k _ u
      · exact ⟨[], .refl u, by simp⟩
    · exact ⟨[], .refl u, by simp⟩
  obtain ⟨rs, hr, hrs⟩ := hg
  exact ⟨[] ++ rs, hb.trans hr, by rwa [List.nil_append, ← hn]⟩

theorem takeExpiries_now (k : SenderNo) (s : State) : (takeExpiries k s).now = s.now :=
  congrArg Clock.now ((senderFrame_takeBurstExpiry k s).trans (senderFrame_takeGapExpiry k _)).clk

theorem takeAllExpiries_recorded (ks : List SenderNo) (s : State) :
    ∃ rs, Recorded rs s (takeAllExpiries ks s) ∧ ∀ r ∈ rs, IsGapDone s.now r := by
  induction ks generalizing s with
  | nil => exact ⟨[], .refl s, by simp⟩
  | cons k rest ih =>
    obtain ⟨rs, hr, hrs⟩ := takeExpiries_recorded k s
    obtain ⟨rs', hr', hrs'⟩ := ih (takeExpiries k s)
    refine ⟨rs ++ rs', hr.trans hr', fun r hmem => ?_⟩
    rcases List.mem_append.1 hmem with h | h
    · exact hrs r h
    · exact takeExpiries_now k s ▸ hrs' r h

/-- Only at a tick boundary are there expiries before a loss. -/
theorem expiriesBeforeLoss_recorded (s : State) : ∃ rs, Recorded rs s (expiriesBeforeLoss s)
    ∧ (rs ≠ [] → s.clk.frame = 0) ∧ ∀ r ∈ rs, IsGapDone s.now r := by
  unfold expiriesBeforeLoss
  split
  · rename_i hf
    obtain ⟨rs, hr, hrs⟩ := takeAllExpiries_recorded (Config.expiriesFirst s.clk.losses) s
    exact ⟨rs, hr, fun _ => hf, hrs⟩
  · exact ⟨[], .refl s, fun h => absurd rfl h, by simp⟩

/-! ### Commands that change the clock's state -/

theorem enterLocked_changed (s : State) : ClockChanged [] s (enterLocked s) := by
  rw [enterLocked_eq]
  have hv : ClockChanged [] s s.lockedBoundary := changeClock_changed .locked (startFrame_staged s) (startFrame_blocks s).2.1
  exact hv.congr rfl rfl rfl

theorem qualifyEdge_changed {s : State} (hne : (qualifyEdge s).clk.state ≠ s.clk.state) :
    ClockChanged [] s (qualifyEdge s) := by
  revert hne
  simp only [qualifyEdge]
  split
  · split
    · exact fun _ => enterLocked_changed s
    · exact fun hne => absurd rfl hne
  · exact fun hne => absurd rfl hne

/-- An edge changes the clock's state out of LOCKED alone (R206, R208). -/
theorem takeEdge_changed {s : State} (hne : (takeEdge s).clk.state ≠ s.clk.state) :
    ClockChanged [] s (takeEdge s) ∧ s.clk.state ≠ .locked := by
  have hout : ClockChanged [] s (changeClock .qualifying
      { s with clk := { s.clk with qualCount := 0, lockDue := false, spacing := 0 } }) :=
    changeClock_changed .qualifying ⟨rfl, rfl⟩ rfl
  revert hne
  unfold takeEdge
  split
  · rename_i hf
    exact fun _ => ⟨hout, by simp [hf]⟩
  · rename_i hf
    exact fun _ => ⟨hout, by simp [hf]⟩
  · rename_i hq
    exact fun hne => ⟨qualifyEdge_changed hne, by simp [hq]⟩
  · unfold lockedEdge
    split
    · exact fun hne => absurd rfl hne
    · exact fun hne => absurd (nextLockedFrame_spec 0 s).1 hne

theorem xfsEdge_changed {cycle : Nat} {s t : State} (he : execXfsEdge cycle s = .next t)
    (hne : t.clk.state ≠ s.clk.state) : ClockChanged [] s t ∧ s.clk.state ≠ .locked := by
  rcases whenDue_cases he with ⟨-, rfl⟩ | rfl
  · obtain ⟨⟨hs, hr⟩, hout⟩ := takeEdge_changed (s := { s with clk := s.clk.passTo cycle }) hne
    exact ⟨⟨hs, hr⟩, hout⟩
  · exact absurd rfl hne

theorem qualifyTimeout_changed {s t : State} (he : execQualifyTimeout s = .next t) (hne : t.clk.state ≠ s.clk.state) :
    ClockChanged [] s t ∧ s.clk.state ≠ .locked := by
  rcases whenDue_cases he with ⟨hd, rfl⟩ | rfl
  · simp only [Bool.and_eq_true, beq_iff_eq] at hd
    exact ⟨changeClock_changed _ ⟨rfl, rfl⟩ rfl, by simp [hd.1.2]⟩
  · exact absurd rfl hne

theorem loseReference_now (s : State) : (loseReference s).now = s.now :=
  (changeClock_now _ _).trans (now_congr rfl rfl rfl rfl)

/-- The fourth filled frame loses the reference, after the boundary's expiries (R140, R208). -/
theorem filledFrame_changed {s t : State} (he : execFilledFrame s = .next t) (hne : t.clk.state ≠ s.clk.state) :
    ∃ first, ClockChanged first s t ∧ (first ≠ [] → (s.clk.frame + 1) % 4 = 0) ∧ (∀ r ∈ first, IsGapDone t.now r)
      ∧ t.clk.state = .holdover := by
  obtain ⟨⟨hst, hfr, -⟩, ⟨-, -, hx, -⟩, ⟨-, hregs, -⟩, -⟩ := filled_spec s
  have hcases : t = loseReference (expiriesBeforeLoss s.filled) ∨ t = composeFrame s.filled ∨ t = s := by
    rcases whenDue_cases he with ⟨-, rfl⟩ | rfl
    · change (if 4 ≤ s.clk.missing + 1 then loseReference (expiriesBeforeLoss s.filled) else composeFrame s.filled) = _ ∨ _
      split
      · exact .inl rfl
      · exact .inr (.inl rfl)
    · exact .inr (.inr rfl)
  rcases hcases with rfl | rfl | rfl
  · obtain ⟨rs, hr, hframe, hrs⟩ := expiriesBeforeLoss_recorded s.filled
    obtain ⟨-, -, hregs', -, -, -, hc, -⟩ := expiriesBeforeLoss_blocks hx
    have h0 : Staged [] s s.filled := startFrame_staged s.filling
    have h1 : Staged rs s (expiriesBeforeLoss s.filled) := h0.trans hr.staged
    have hnow : (loseReference (expiriesBeforeLoss s.filled)).now = s.filled.now :=
      (loseReference_now _).trans (congrArg Clock.now hc)
    refine ⟨rs, changeClock_changed .holdover h1 (hregs'.trans hregs), fun h => hfr.symm.trans (hframe h), ?_,
      changeClock_state _ _⟩
    rwa [hnow]
  · exact absurd hst hne
  · exact absurd rfl hne

/-- The commands that change the clock's state, resets aside (R206, R208, R209). -/
def changesClock : Instr → Bool
  | .xfsEdge _ | .qualifyTimeout | .filledFrame => true
  | _ => false

/-- Every other command but a reset keeps the clock's state. -/
theorem exec_clockState {i : Instr} {s t : State} (hi : changesClock i = false) (hr : isReset i = false)
    (he : exec i s = .next t) : t.clk.state = s.clk.state := by
  by_cases ho : offClock i = true
  · rw [(exec_clockSame ho he).clk]
  have keep : ∀ {due : Bool} {u : State}, whenDue due s u = .next t → u.clk.state = s.clk.state → t.clk.state = s.clk.state :=
    fun h hu => whenDue_keeps (P := fun v => v.clk.state = s.clk.state) h rfl fun _ => hu
  cases i
  case resetNReturnsHigh => cases he; rfl
  case supplyInOperatingRange => cases he; rfl
  case startUpHoldEnd =>
    refine keep (show execStartUpHoldEnd s = .next t from he) ?_
    rw [(tickBoundary_spec _).2.2.2.2.2.2.2]
    simp
  case frameStart => exact keep (show execFrameStart s = .next t from he) (startFrame_clock _).1
  case timeRollover => exact keep (show execTimeRollover s = .next t from he) (roll_state _)
  case lockHandoverTimeout => exact keep (show execLockHandoverTimeout s = .next t from he) (startFrame_clock _).1
  case dividerWindowClose =>
    simp only [exec, execDividerWindowClose] at he
    split at he
    · exact keep he rfl
    · cases he
      rfl
  case burstStart k => rw [(senderFrame_burstStart he).clk]
  case burstExpiry k =>
    cases he
    rw [(senderFrame_takeBurstExpiry k s).clk]
  case gapExpiry k =>
    cases he
    rw [(senderFrame_takeGapExpiry k s).clk]
  case lineSlotReceived n v => exact keep (show execLineSlotReceived n v s = .next t from he) rfl
  case headerTakeUp now =>
    simp only [exec, execHeaderTakeUp] at he
    split at he
    · rename_i q _
      refine keep he ?_
      have hset : (s.clk.settle.takeSetting (byteOf (q.got.getD 3 0) 1) (q.got.getD 4 0)).state = s.clk.state := by
        unfold Clock.takeSetting
        split
        · exact settle_state _
        · exact settle_state _
      split
      · exact hset
      · exact hset
    · cases he
      rfl
  case powerOn | pinReset | softReset => cases hr
  case xfsEdge | qualifyTimeout | filledFrame => cases hi
  all_goals exact absurd rfl ho

/-- Settles O4: three commands change the clock's state, and each through changeClock. -/
theorem clockChangesAreRecorded : Obligations.ClockChangesAreRecorded := by
  intro c s t he hr hne
  by_cases hc : changesClock c = true
  · cases c
    case xfsEdge cycle =>
      obtain ⟨⟨⟨hs, hg⟩, hregs⟩, hout⟩ := xfsEdge_changed he hne
      exact ⟨⟨[], hs, hg, fun h => absurd rfl h, by simp⟩, hregs, fun hl => absurd hl hout⟩
    case qualifyTimeout =>
      obtain ⟨⟨⟨hs, hg⟩, hregs⟩, hout⟩ := qualifyTimeout_changed he hne
      exact ⟨⟨[], hs, hg, fun h => absurd rfl h, by simp⟩, hregs, fun hl => absurd hl hout⟩
    case filledFrame =>
      obtain ⟨first, ⟨⟨hs, hg⟩, hregs⟩, hframe, hfirst, hlost⟩ := filledFrame_changed he hne
      exact ⟨⟨first, hs, hg, fun h => ⟨rfl, hframe h⟩, hfirst⟩, hregs, fun _ => hlost⟩
    all_goals cases hc
  · exact absurd (exec_clockState (Bool.eq_false_iff.2 hc) hr he) hne

end Sys2Proof.Machine
end

section
/-! SUPPORT. Bursts and gaps of a sender at a tick boundary (R134, R135, R148, R150): what its steps leave, and what the slots of
a driven frame 0 then carry. -/

namespace Sys2Proof.Machine

/-! ### Steps of one sender -/

theorem OtherSame.refl (k : SenderNo) (s : State) : OtherSame k s s :=
  ⟨rfl, rfl, rfl, rfl, rfl, rfl, rfl, rfl, rfl, rfl, rfl, rfl, rfl, rfl, fun _ _ => rfl⟩

theorem OtherSame.trans {k : SenderNo} {s t u : State} (h : OtherSame k s t) (h' : OtherSame k t u) : OtherSame k s u := by
  obtain ⟨a1, a2, a3, a4, a5, a6, a7, a8, a9, a10, a11, a12, a13, a14, a15⟩ := h
  obtain ⟨b1, b2, b3, b4, b5, b6, b7, b8, b9, b10, b11, b12, b13, b14, b15⟩ := h'
  exact ⟨b1.trans a1, b2.trans a2, b3.trans a3, b4.trans a4, b5.trans a5, b6.trans a6, b7.trans a7, b8.trans a8,
    b9.trans a9, b10.trans a10, b11.trans a11, b12.trans a12, b13.trans a13, b14.trans a14,
    fun j hj => (b15 j hj).trans (a15 j hj)⟩

theorem otherSame_setSender (k : SenderNo) (x : Sender) (s : State) : OtherSame k s (s.setSender k x) :=
  ⟨rfl, rfl, rfl, rfl, rfl, rfl, rfl, rfl, rfl, rfl, rfl, rfl, rfl, rfl, fun j hj => by simp [hj]⟩

theorem otherSame_recompose (k : SenderNo) (moved : LineNo → Bool) (s : State) : OtherSame k s (recompose moved s) := by
  rw [(recompose_spec moved s).1]
  exact ⟨rfl, rfl, rfl, rfl, rfl, rfl, rfl, rfl, rfl, rfl, rfl, rfl, rfl, rfl, fun _ _ => rfl⟩

theorem otherSame_beginBurst (k : SenderNo) (n : LineNo) (s : State) : OtherSame k s (beginBurst k n s) := by
  simp only [beginBurst]
  split
  · obtain ⟨a1, a2, a3, a4, a5, a6, a7, a8, a9, -, -, -, a13, a14, a15⟩ :=
      otherSame_setSender k ((s.sender k).startBurst ((s.line n).store.head?.map (·.key))).advance s
    exact ⟨a1, a2, a3, a4, a5, a6, a7, a8, a9, rfl, rfl, rfl, a13, a14, a15⟩
  · exact otherSame_setSender k _ s

/-- The sender as its burst begins: its first frame counted where that frame is driven (R134, R152). -/
theorem beginBurst_sender (k : SenderNo) (n : LineNo) (s : State) : (beginBurst k n s).sender k
    = if boundaryFrame s then ((s.sender k).startBurst ((s.line n).store.head?.map (·.key))).advance
      else (s.sender k).startBurst ((s.line n).store.head?.map (·.key)) := by
  simp only [beginBurst]
  split
  · exact (sender_setSender s k k _).trans (if_pos rfl)
  · simp

theorem advance_same (x : Sender) : x.advance = { x with accLow := x.advance.accLow, accHigh := x.advance.accHigh } := by
  unfold Sender.advance
  split
  · rfl
  · rfl

theorem advance_accs {x : Sender} {key : Key} (h : x.key = some key) :
    x.advance.accLow = x.accLow + lowIncrement key ∧ x.advance.accHigh = x.accHigh + highIncrement key := by
  simp [Sender.advance, h]

/-- A sender at the start of a burst of key, but for its accumulators. -/
theorem beginBurst_sender_same (k : SenderNo) (n : LineNo) (s : State) : (beginBurst k n s).sender k
    = { s.sender k with state := .on, begun := true, burstDue := false, timer := 0
                        key := (s.line n).store.head?.map (·.key)
                        accLow := ((beginBurst k n s).sender k).accLow
                        accHigh := ((beginBurst k n s).sender k).accHigh } := by
  rw [beginBurst_sender]
  split
  · rw [advance_same]
    rfl
  · rfl

/-! ### Frames driven or not -/

theorem boundaryFrame_true {s : State} (hw : s.part.phase = .working) (hl : s.clk.state = .locked) (hf : s.clk.frame = 0)
    (hx : ∀ m : LineNo, s.hwy.xtxd[m] ≠ none) : boundaryFrame s = true := by
  have hd : s.hwy.driven = true := Option.isSome_iff_ne_none.2 (hx 0)
  simp [boundaryFrame, working_iff.2 hw, hl, hf, hd]

theorem boundaryFrame_false {s : State}
    (h : ¬ (s.clk.state = .locked ∧ s.clk.frame = 0) ∨ ∀ m : LineNo, s.hwy.xtxd[m] = none) : boundaryFrame s = false := by
  refine Bool.eq_false_iff.2 fun hb => ?_
  simp only [boundaryFrame, Bool.and_eq_true, beq_iff_eq] at hb
  rcases h with h | h
  · exact h ⟨hb.1.1.2, hb.1.2⟩
  · simp [Highway.driven, show s.hwy.xtxd[0] = none from h 0] at hb

/-! ### Silent slots (R150, R154) -/

/-- At phase 0 of both groups the tone is 0 (R153, R154). -/
theorem toneSample_zero (p : Profile) {x : Sender} (hl : x.accLow = 0) (hh : x.accHigh = 0) : toneSample p x = 0 := by
  have hz : phaseEntry 0#16 = 0 := by decide
  simp [toneSample, toneValue, component, saturate, hl, hh, hz]

/-- A sender that is in no burst yet, or in none, or at phase 0 of it, gives 0. -/
theorem toneOutput_zero {s : State} {l : Line} {k : SenderNo} (ha : l.attached = some k)
    (h : (s.sender k).begun = false ∨ (s.sender k).state ≠ .on ∨ (s.sender k).accLow = 0 ∧ (s.sender k).accHigh = 0) :
    toneOutput s l = 0 := by
  unfold toneOutput
  cases hp : l.adopted with
  | none => simp [ha]
  | some p =>
    simp only [ha]
    split
    · rename_i hs
      simp only [sounding, Bool.and_eq_true, beq_iff_eq] at hs
      rcases h with h | h | ⟨h1, h2⟩
      · simp [h] at hs
      · exact absurd hs.1.1 h
      · exact toneSample_zero p h1 h2
    · rfl

/-- Under TONE a slot carries what the attached sender gives (R147, R150). -/
theorem slotSample_tone {s : State} {n : LineNo} {k : SenderNo} (ha : (s.line n).attached = some k) (delayed : Sample) :
    slotSample delayed s n = toneOutput s (s.line n) := by
  simp [slotSample, Line.path, ha]

theorem beginBurst_slot_ne (k : SenderNo) {m n : LineNo} (hm : m ≠ n) (s : State) :
    (beginBurst k n s).hwy.xtxd[m] = s.hwy.xtxd[m] := by
  simp only [beginBurst]
  split
  · have : ¬ n.val = m.val := fun e => hm (Fin.ext e.symm)
    simp [this]
  · rfl

/-- The first frame of a burst is that of phase 0 (R148, R152). -/
theorem beginBurst_slot {k : SenderNo} {n : LineNo} {s : State} (hb : boundaryFrame s = true)
    (ha : (s.line n).attached = some k) : (beginBurst k n s).hwy.xtxd[n] = some 0 := by
  have hzero : ∀ x : Option Key, toneOutput (s.setSender k ((s.sender k).startBurst x)) (s.line n) = 0 := fun x =>
    toneOutput_zero ha (.inr (.inr (by simp [Sender.startBurst])))
  simp [beginBurst, hb, hzero]

theorem beginBurst_hwy {k : SenderNo} {n : LineNo} {s : State} (hb : boundaryFrame s = false) :
    (beginBurst k n s).hwy = s.hwy := (senderFrame_beginBurst k n s).hwy_undriven hb

/-! ### BURST_START and BURST_EXPIRY (R134) -/

theorem burstStart_exec {k : SenderNo} {n : LineNo} {s : State} (hw : s.part.phase = .working)
    (hline : (s.sender k).line = some n) (hon : (s.sender k).state = .on) (hb : (s.sender k).begun = false)
    (hd : (s.sender k).burstDue = true) : exec (.burstStart k) s = .next (beginBurst k n s) := by
  have hdue : (s.working && (s.sender k).state == .on && !(s.sender k).begun && (s.sender k).burstDue) = true := by
    simp [working_iff.2 hw, hon, hb, hd]
  simp only [exec, execBurstStart, hline]
  exact whenDue_true hdue _ _

/-- A burst that has reached T_on goes to GAP, its slot composed again (R134, R150). -/
theorem takeBurstExpiry_due {k : SenderNo} {n : LineNo} {p : Profile} {s : State} (hw : s.part.phase = .working)
    (hline : (s.sender k).line = some n) (hp : (s.line n).adopted = some p) (hon : (s.sender k).state = .on)
    (hb : (s.sender k).begun = true) (ht : p.tOn ≤ (s.sender k).timer) :
    takeBurstExpiry k s = recompose (fun m => some n == some m) (s.setSender k (s.sender k).enterGap) := by
  have hdue : (s.working && burstExpired p (s.sender k)) = true := by
    simp [working_iff.2 hw, burstExpired, hon, hb, ht]
  simp only [takeBurstExpiry, senderProfile, hline, hp]
  rw [if_pos hdue]

/-- Settles O31: the burst of a fresh grant begins, the burst at T_on ends. -/
theorem burstsBeginAndExpire : Obligations.BurstsBeginAndExpire := by
  intro k n s hw hline hon
  refine ⟨fun hb hd => ?_, fun p hp hb ht => ?_⟩
  · refine ⟨_, burstStart_exec hw hline hon hb hd, otherSame_beginBurst k n s, beginBurst_lines k n s, ?_⟩
    have hx := beginBurst_sender_same k n s
    refine ⟨by rw [hx], by rw [hx], by rw [hx], by rw [hx], by rw [hx]; exact hline, by rw [hx], by rw [hx], by rw [hx],
      fun hout => ?_, fun hl hf hall => ?_⟩
    · have hbf := boundaryFrame_false hout
      rw [beginBurst_sender, hbf]
      exact ⟨rfl, rfl, beginBurst_hwy hbf⟩
    · have hbf := boundaryFrame_true hw hl hf hall
      refine ⟨fun key hkey => ?_, beginBurst_slot hbf, fun m hm => beginBurst_slot_ne k hm s⟩
      rw [hx] at hkey
      have hkey' : ((s.sender k).startBurst ((s.line n).store.head?.map (·.key))).key = some key := hkey
      rw [beginBurst_sender, hbf]
      obtain ⟨h1, h2⟩ := advance_accs hkey'
      exact ⟨h1.trans (BitVec.zero_add _), h2.trans (BitVec.zero_add _)⟩
  · have hlines : ∀ moved, (recompose moved (s.setSender k (s.sender k).enterGap)).lines = s.lines := fun moved => by
      rw [(recompose_spec moved _).1]
      rfl
    obtain ⟨hrec, hslots⟩ := recompose_spec (fun m => some n == some m) (s.setSender k (s.sender k).enterGap)
    refine ⟨_, congrArg Host.Outcome.next (takeBurstExpiry_due hw hline hp hon hb ht),
      (otherSame_setSender k _ s).trans (otherSame_recompose k _ _), hlines _, ?_, fun hout => ?_, fun hl hf hall => ?_⟩
    · rw [hrec]
      exact (sender_setSender s k k _).trans (if_pos rfl)
    · exact (senderFrame_recompose _ (s.setSender k (s.sender k).enterGap)).hwy_undriven (boundaryFrame_false hout)
    · have hbf : boundaryFrame (s.setSender k (s.sender k).enterGap) = true := boundaryFrame_true hw hl hf hall
      refine ⟨fun ha => ?_, fun m hm => ?_⟩
      · rw [hslots n, if_pos ⟨hbf, by simp⟩, slotSample_tone (by simpa using ha)]
        exact congrArg some (toneOutput_zero (by simpa using ha) (.inl (by simp [Sender.enterGap])))
      · rw [hslots m, if_neg fun h => hm (Option.some.inj (beq_iff_eq.1 h.2)).symm]
        rfl

end Sys2Proof.Machine
end

section
/-! SUPPORT. GAP_EXPIRY, case by case (R130, R131, R135, R138, R142), and the slots of a driven frame 0 then (R147 to R150). -/

namespace Sys2Proof.Machine

/-! ### Fresh grants -/

/-- A line attached anew has a sender that has begun no burst (R131). -/
def NewlyAttached (s t : State) : Prop :=
  ∀ m, (t.line m).attached = (s.line m).attached
    ∨ ∃ j, (t.line m).attached = some j ∧ (t.sender j).begun = false ∧ (t.sender j).state ≠ .free

theorem grantOne_newlyAttached (b : Bool) (s : State) : NewlyAttached s (grantOne b s) := by
  intro m
  unfold grantOne
  split
  · rename_i j e rest _ _
    by_cases hm : m = e.line
    · refine .inr ⟨j, by simp [attach, hm], by simp [attach, grantedSender, Sender.reset], ?_⟩
      simp only [attach, grantedSender, sender_setLine, sender_setSender, if_true]
      split <;> simp
    · exact .inl (by simp [attach, hm])
  · exact .inl rfl

theorem grantMany_newlyAttached (b : Bool) (fuel : Nat) (s : State) : NewlyAttached s (grantMany b fuel s) := by
  induction fuel generalizing s with
  | zero => exact fun _ => .inl rfl
  | succ fuel ih =>
    intro m
    rcases ih (grantOne b s) m with h | h
    · rcases grantOne_newlyAttached b s m with h' | ⟨j, hj, hb, hf⟩
      · exact .inl (h.trans h')
      · have hk : (grantMany b (fuel + 1) s).sender j = (grantOne b s).sender j := grantMany_senders b fuel _ j hf
        exact .inr ⟨j, h.trans hj, by rwa [hk], by rwa [hk]⟩
    · exact .inr h

theorem arbitrate_newlyAttached (b : Bool) (s : State) : NewlyAttached s (arbitrate b s) :=
  grantMany_newlyAttached b 16 s

/-! ### The path of a line with no sender (R147, R149) -/

theorem muted_iff (p : Profile) (l : Line) : (p.muteEnable && wantsMute p l) = true ↔ Muted p l := by
  simp only [wantsMute, collectingEnBloc, Bool.and_eq_true, Bool.or_eq_true, dialling_iff, beq_iff_eq, bne_iff_ne,
    Bool.not_eq_true', List.isEmpty_eq_false_iff, or_assoc, and_assoc]

theorem slotSample_unattached {s : State} {n : LineNo} {p : Profile} (ha : (s.line n).attached = none)
    (hp : (s.line n).adopted = some p) (delayed : Sample) :
    (Muted p (s.line n) → slotSample delayed s n = 0) ∧ (¬ Muted p (s.line n) → slotSample delayed s n = delayed) := by
  have hpath : (s.line n).path = if p.muteEnable && wantsMute p (s.line n) then .mute else .pass := by
    simp [Line.path, ha, hp]
  refine ⟨fun h => ?_, fun h => ?_⟩
  · rw [slotSample, hpath, if_pos ((muted_iff p _).2 h)]
  · rw [slotSample, hpath, if_neg (mt (muted_iff p _).1 h)]

/-! ### The slots of a driven frame 0 -/

/-- What the slots carry after a gap expiry on line n: a line attached anew carries 0, line n what its path gives, and every
other keeps what it was composed with (R148, R150). -/
def GapSlots (k : SenderNo) (n : LineNo) (p : Profile) (s t : State) : Prop :=
  (∀ m : LineNo, m ≠ n → t.hwy.xtxd[m] = if (t.line m).attached = (s.line m).attached then s.hwy.xtxd[m] else some 0)
    ∧ ((s.line n).attached = some k → (∀ e ∈ s.pool.waitList, e.line ≠ n) →
      ((t.line n).attached ≠ none ∨ Muted p (s.line n) → t.hwy.xtxd[n] = some 0)
        ∧ ((t.line n).attached = none → ¬ Muted p (s.line n) → t.hwy.xtxd[n] = some s.hwy.delayed[n]))

/-- The next burst of the same line, or the same key again. -/
theorem beginBurst_gapSlots {k : SenderNo} {n : LineNo} {s u : State} (p : Profile) (hb : boundaryFrame u = true)
    (hx : u.hwy = s.hwy) (ha : ∀ m, (u.line m).attached = (s.line m).attached) :
    GapSlots k n p s (beginBurst k n u) := by
  have ha' : ∀ m, ((beginBurst k n u).line m).attached = (s.line m).attached := fun m => by
    rw [line_congr (beginBurst_lines k n u), ha]
  refine ⟨fun m hm => ?_, fun hk _ => ⟨fun _ => beginBurst_slot hb ((ha n).trans hk), fun hnone => ?_⟩⟩
  · rw [if_pos (ha' m), beginBurst_slot_ne k hm, hx]
  · rw [ha', hk] at hnone
    cases hnone

/-- The lines as sender k is freed at the end of its last gap, before the arbiter's grants. -/
theorem gapFreed_before (k : SenderNo) (n : LineNo) (s : State) (r : SendReason) :
    (∀ m, m ≠ n → (freeSender k n r s.now (s.keySent k n)).line m = s.line m)
      ∧ (freeSender k n r s.now (s.keySent k n)).line n
        = { s.line n with store := (s.line n).store.drop 1, attached := none }
      ∧ (freeSender k n r s.now (s.keySent k n)).pool.waitList = s.pool.waitList := by
  refine ⟨fun m hm => ?_, ?_, ?_⟩
  · simp [freeSender, detach, hm]
  · simp [freeSender, detach]
  · simp [freeSender, detach, State.keySent]

/-- Line n does not wait, so no grant gives it a sender. -/
theorem gapFreed_line {k : SenderNo} {n : LineNo} {s : State} (hw : ∀ e ∈ s.pool.waitList, e.line ≠ n) :
    (s.gapFreed k n).line n = { s.line n with store := (s.line n).store.drop 1, attached := none } := by
  obtain ⟨-, hn, hlist⟩ := gapFreed_before k n s (emptyReason (s.sender k).flushMark)
  rw [← hn]
  exact (arbitrate_absent true (by rwa [hlist])).1

theorem gapFreed_newlyAttached {k : SenderNo} {m n : LineNo} (s : State) (hm : m ≠ n)
    (hne : ((s.gapFreed k n).line m).attached ≠ (s.line m).attached) :
    ∃ j, ((s.gapFreed k n).line m).attached = some j ∧ ((s.gapFreed k n).sender j).begun = false := by
  obtain ⟨ho, -, -⟩ := gapFreed_before k n s (emptyReason (s.sender k).flushMark)
  rcases arbitrate_newlyAttached true (freeSender k n (emptyReason (s.sender k).flushMark) s.now (s.keySent k n)) m with
    h | ⟨j, hj, hb, -⟩
  · exact absurd (h.trans (by rw [ho m hm])) hne
  · exact ⟨j, hj, hb⟩

/-- The sender freed: its line without tone, the lines granted on silent. -/
theorem gapFreed_gapSlots {k : SenderNo} {n : LineNo} {p : Profile} {s : State} (hb : boundaryFrame s = true)
    (hp : (s.line n).adopted = some p) :
    GapSlots k n p s (recompose (attachmentMoved s (s.gapFreed k n)) (s.gapFreed k n)) := by
  have hblocks := gapFreed_blocks k n s
  have hb' : boundaryFrame (s.gapFreed k n) = true := hblocks.senderFrame.boundaryFrame.trans hb
  obtain ⟨-, -, -, -, -, hh, -⟩ := hblocks
  obtain ⟨hrec, hslots⟩ := recompose_spec (attachmentMoved s (s.gapFreed k n)) (s.gapFreed k n)
  have hlines : ∀ m, (recompose (attachmentMoved s (s.gapFreed k n)) (s.gapFreed k n)).line m = (s.gapFreed k n).line m :=
    fun m => line_congr (by rw [hrec]) m
  have hmoved : ∀ m, attachmentMoved s (s.gapFreed k n) m = true
      ↔ ((s.gapFreed k n).line m).attached ≠ (s.line m).attached := fun m => by simp [attachmentMoved]
  refine ⟨fun m hm => ?_, fun hk hw => ?_⟩
  · rw [hslots m, hlines m]
    by_cases heq : ((s.gapFreed k n).line m).attached = (s.line m).attached
    · rw [if_neg fun h => (hmoved m).1 h.2 heq, if_pos heq, hh]
    · obtain ⟨j, hj, hbegun⟩ := gapFreed_newlyAttached s hm heq
      rw [if_pos ⟨hb', (hmoved m).2 heq⟩, if_neg heq, slotSample_tone hj, toneOutput_zero hj (.inl hbegun)]
  · have hline := gapFreed_line (k := k) hw
    have hnone : ((s.gapFreed k n).line n).attached = none := by rw [hline]
    have hslot := hslots n
    rw [if_pos ⟨hb', (hmoved n).2 (by rw [hnone, hk]; exact (Option.some_ne_none k).symm)⟩] at hslot
    obtain ⟨hmute, hpass⟩ := slotSample_unattached hnone (by rw [hline]; exact hp) (s.gapFreed k n).hwy.delayed[n]
    have hmuted : Muted p ((s.gapFreed k n).line n) ↔ Muted p (s.line n) := by rw [hline]
    refine ⟨fun h => ?_, fun _ h => ?_⟩
    · have hm : Muted p (s.line n) := h.resolve_left fun hne => hne (by rw [hlines n, hnone])
      rw [hslot, hmute (hmuted.2 hm)]
    · rw [hslot, hpass (mt hmuted.1 h), hh]

/-! ### The three cases -/

theorem gapExpiry_exec {k : SenderNo} {n : LineNo} {p : Profile} {s : State} (hw : s.part.phase = .working)
    (hline : (s.sender k).line = some n) (hp : (s.line n).adopted = some p) (hgap : (s.sender k).state = .gap)
    (ht : p.tOff ≤ (s.sender k).timer) : exec (.gapExpiry k) s = .next (expireGap k n s) := by
  have hdue : (s.working && gapExpired p (s.sender k)) = true := by simp [working_iff.2 hw, gapExpired, hgap, ht]
  simp only [exec, execGapExpiry, takeGapExpiry, senderProfile, hline, hp]
  rw [if_pos hdue]

theorem gapExpiry_paused {k : SenderNo} {s : State} (h : (s.sender k).state = .paused) :
    exec (.gapExpiry k) s = .next s := by
  simp only [exec, execGapExpiry, takeGapExpiry]
  split
  · rw [if_neg (by simp [gapExpired, h])]
  · rfl

theorem expireGap_gapSlots {k : SenderNo} {n : LineNo} {p : Profile} {s : State} (hb : boundaryFrame s = true)
    (hp : (s.line n).adopted = some p) : GapSlots k n p s (expireGap k n s) := by
  rcases expireGap_cases k n s with h | h | h <;> rw [h]
  · exact beginBurst_gapSlots p ((senderFrame_setSender k _ s).boundaryFrame.trans hb) rfl fun m => by simp
  · refine beginBurst_gapSlots p ?_ rfl fun m => ?_
    · exact ((keySent_blocks k n s).senderFrame.trans (senderFrame_setSender k _ _)).boundaryFrame.trans hb
    · by_cases hm : m = n
      · simp [hm]
      · simp [hm]
  · exact gapFreed_gapSlots hb hp

/-- The claims of GoesToHead about another state that agrees in what they read before the event. -/
theorem GoesToHead.before {b : Bool} {k : SenderNo} {n : LineNo} {s s' t : State} (h : GoesToHead b k n s' t)
    (hw : s'.pool.waitList = s.pool.waitList) (hj : s'.pool.joins = s.pool.joins)
    (hk : ∀ j, j ≠ k → s'.sender j = s.sender j) (hl : OtherLinesSame n s s')
    (hn : ∀ e ∈ s.pool.waitList, e.line ≠ n) : GoesToHead b k n s t := by
  unfold GoesToHead at *
  obtain ⟨hjoins, hsend, hm⟩ := h
  refine ⟨hjoins.trans hj, fun j hjk => (hsend j hjk).trans (hk j hjk), ?_⟩
  rw [hw] at hm
  cases hlist : s.pool.waitList with
  | nil =>
    simp only [hlist] at hm ⊢
    obtain ⟨h1, h2, h3, h4⟩ := hm
    exact ⟨h1, h2, h3, fun m hmn => (h4 m hmn).trans (hl m hmn)⟩
  | cons e rest =>
    simp only [hlist] at hm ⊢
    obtain ⟨h1, h2, h3, h4⟩ := hm
    exact ⟨h1, h2, by rwa [← hl e.line (hn e (by simp [hlist]))], fun m hmn hme => (h4 m hmn hme).trans (hl m hmn)⟩

/-- The freed sender goes to the head of the list, its burst due at this boundary (R130, R131). -/
theorem gapFreed_goesOn (k : SenderNo) (n : LineNo) (s : State) : FreedGoesOn true k n s (s.gapFreed k n) := by
  refine (freedGoesOn_iff ..).2 fun hpool harb ha => ?_
  have hn := hpool.absent ha
  obtain ⟨-, -, hd, -⟩ := hpool
  have hbusy : (∀ j, j ≠ k → ((s.keySent k n).sender j).state ≠ .free) ∨ (s.keySent k n).pool.waitList = [] :=
    harb.imp_left fun h j hj => by rw [keySent_sender_ne n s hj]; exact h j
  exact (arbitrate_freed (s := s.keySent k n) true _ s.now hn hd hbusy).before rfl rfl
    (fun j hj => keySent_sender_ne n s hj) (fun m hm => keySent_line_ne k s hm) hn

theorem recompose_pool (moved : LineNo → Bool) (s : State) : (recompose moved s).pool = s.pool := by
  rw [(recompose_spec moved s).1]

theorem FreedGoesOn.congr {b : Bool} {k : SenderNo} {n : LineNo} {s t t' : State} (h : FreedGoesOn b k n s t)
    (hp : t'.pool = t.pool) (hl : t'.lines = t.lines) (hc : t'.clk = t.clk) : FreedGoesOn b k n s t' := by
  rw [freedGoesOn_iff] at *
  exact fun hpool harb ha =>
    (h hpool harb ha).congr (hpool.absent ha) rfl (fun _ _ => rfl) hp (fun m _ => line_congr hl m) hc

theorem gapFreed_senders {j k : SenderNo} {n : LineNo} {s : State} (hj : j ≠ k) (hf : (s.sender j).state ≠ .free) :
    (s.gapFreed k n).sender j = s.sender j := by
  have h1 : (freeSender k n (emptyReason (s.sender k).flushMark) s.now (s.keySent k n)).sender j = s.sender j := by
    simp [freeSender, detach, hj]
  exact (arbitrate_senders true _ j (by rwa [h1])).trans h1

/-- With no line waiting the sender stays FREE. -/
theorem gapFreed_free {k : SenderNo} {n : LineNo} {s : State} (h : s.pool.waitList = []) :
    (s.gapFreed k n).sender k = Sender.reset := by
  obtain ⟨-, -, hlist⟩ := gapFreed_before k n s (emptyReason (s.sender k).flushMark)
  rw [State.gapFreed, arbitrate_none_waiting true (hlist.trans h)]
  exact (freeSender_spec k n _ s.now (s.keySent k n)).2.2.2.2

/-- The head key sent again (R135). -/
theorem expireGap_resent {k : SenderNo} {n : LineNo} {s : State} (h : (s.sender k).resendMark = true) :
    (expireGap k n s).lines = s.lines ∧ Recorded [] s (expireGap k n s) ∧ OtherSame k s (expireGap k n s)
      ∧ ((expireGap k n s).sender k).state = .on ∧ ((expireGap k n s).sender k).begun = true
      ∧ ((expireGap k n s).sender k).timer = 0 ∧ ((expireGap k n s).sender k).resendMark = false
      ∧ ((expireGap k n s).sender k).key = (s.line n).store.head?.map (·.key)
      ∧ ((expireGap k n s).sender k).keysSent = (s.sender k).keysSent
      ∧ ((expireGap k n s).sender k).flushMark = (s.sender k).flushMark := by
  rw [expireGap_resend n h]
  have hx := beginBurst_sender_same k n (s.setSender k { s.sender k with resendMark := false })
  have hrec := (setSender_recorded k { s.sender k with resendMark := false } s).trans (beginBurst_recorded k n _)
  have hsame := (otherSame_setSender k { s.sender k with resendMark := false } s).trans (otherSame_beginBurst k n _)
  refine ⟨beginBurst_lines k n _, hrec, hsame, ?_⟩
  rw [hx]
  simp

/-- The head key gone, the next one's burst begins (R135, R138). -/
theorem expireGap_went {k : SenderNo} {n : LineNo} {s : State} (h : (s.sender k).resendMark = false)
    (hs : (s.line n).store.drop 1 ≠ []) :
    (expireGap k n s).line n = { s.line n with store := (s.line n).store.drop 1 } ∧ OtherLinesSame n s (expireGap k n s)
      ∧ Recorded [] s (expireGap k n s) ∧ OtherSame k s (expireGap k n s)
      ∧ ((expireGap k n s).sender k).state = .on ∧ ((expireGap k n s).sender k).begun = true
      ∧ ((expireGap k n s).sender k).timer = 0
      ∧ ((expireGap k n s).sender k).key = ((s.line n).store.drop 1).head?.map (·.key)
      ∧ ((expireGap k n s).sender k).keysSent = min ((s.sender k).keysSent + 1) 65535
      ∧ ((expireGap k n s).sender k).flushMark = false := by
  rw [expireGap_next h hs]
  have hx := beginBurst_sender_same k n ((s.keySent k n).setSender k { (s.keySent k n).sender k with flushMark := false })
  have hl : ∀ m, (beginBurst k n ((s.keySent k n).setSender k { (s.keySent k n).sender k with flushMark := false })).line m
      = (s.keySent k n).line m := fun m => (line_congr (beginBurst_lines k n _) m).trans (line_setSender _ _ _ _)
  have h1 : Recorded [] s (s.keySent k n) := recorded_nil.2 ⟨rfl, rfl⟩
  have hrec := (h1.trans (setSender_recorded k { (s.keySent k n).sender k with flushMark := false } _)).trans
    (beginBurst_recorded k n _)
  have h2 : OtherSame k s (s.keySent k n) :=
    ⟨rfl, rfl, rfl, rfl, rfl, rfl, rfl, rfl, rfl, rfl, rfl, rfl, rfl, rfl, fun j hj => keySent_sender_ne n s hj⟩
  have hsame := (h2.trans (otherSame_setSender k { (s.keySent k n).sender k with flushMark := false } _)).trans
    (otherSame_beginBurst k n _)
  refine ⟨(hl n).trans (keySent_line k n s), fun m hm => (hl m).trans (keySent_line_ne k s hm), hrec, hsame, ?_⟩
  rw [hx]
  simp [bump, Config.countLimit]

/-- The store empty, the sender freed and granted on (R130, R131, R135, R142). -/
theorem expireGap_freed {k : SenderNo} {n : LineNo} {s : State} (h : (s.sender k).resendMark = false)
    (hs : (s.line n).store.drop 1 = []) (hw : ∀ e ∈ s.pool.waitList, e.line ≠ n) :
    (expireGap k n s).line n = { s.line n with store := [], attached := none }
      ∧ OtherLinesSameButSenders n s (expireGap k n s)
      ∧ (s.pool.waitList = [] → ((expireGap k n s).sender k).state = .free ∧ ((expireGap k n s).sender k).line = none)
      ∧ FreedGoesOn true k n s (expireGap k n s)
      ∧ (∀ j, j ≠ k → (s.sender j).state ≠ .free → (expireGap k n s).sender j = s.sender j)
      ∧ Recorded [⟨some n, s.now, .sendDone k (min ((s.sender k).keysSent + 1) 65535)
          (if (s.sender k).flushMark = true then .flushed else .empty)⟩] s (expireGap k n s) := by
  rw [expireGap_empty h hs]
  have hpool := recompose_pool (attachmentMoved s (s.gapFreed k n)) (s.gapFreed k n)
  have hlines := recompose_lines (attachmentMoved s (s.gapFreed k n)) (s.gapFreed k n)
  have hclk := (senderFrame_recompose (attachmentMoved s (s.gapFreed k n)) (s.gapFreed k n)).clk
  have hrec := (gapFreed_recorded k n s).trans (recompose_recorded (attachmentMoved s (s.gapFreed k n)) (s.gapFreed k n))
  generalize recompose (attachmentMoved s (s.gapFreed k n)) (s.gapFreed k n) = t at *
  have hsend : ∀ j, t.sender j = (s.gapFreed k n).sender j := fun j => by simp [State.sender, hpool]
  obtain ⟨ho, -, -⟩ := gapFreed_before k n s (emptyReason (s.sender k).flushMark)
  obtain ⟨-, hbut, -⟩ := arbitrate_event true (freeSender k n (emptyReason (s.sender k).flushMark) s.now (s.keySent k n))
  refine ⟨?_, fun m hm => ?_, fun hnone => ?_, (gapFreed_goesOn k n s).congr hpool hlines hclk, fun j hj hf => ?_, ?_⟩
  · rw [line_congr hlines, gapFreed_line hw, hs]
  · rw [line_congr hlines, ← ho m hm]
    exact hbut m
  · rw [hsend, gapFreed_free hnone]
    exact ⟨rfl, rfl⟩
  · rw [hsend, gapFreed_senders hj hf]
  · have hr : sendDone k n (emptyReason (s.sender k).flushMark) s.now (s.keySent k n)
        = ⟨some n, s.now, .sendDone k (min ((s.sender k).keysSent + 1) 65535)
          (if (s.sender k).flushMark = true then .flushed else .empty)⟩ := by
      simp [sendDone, lineRecord, emptyReason, bump, Config.countLimit]
    rw [← hr]
    exact hrec

/-- Settles O32: a gap expiry by its three cases, and none in PAUSED. -/
theorem gapsExpire : Obligations.GapsExpire := by
  refine ⟨fun k n p s hw hline hp hgap ht => ?_, fun k s h => gapExpiry_paused h⟩
  have hframe := senderFrame_expireGap k n s
  refine ⟨_, gapExpiry_exec hw hline hp hgap ht, hframe.part, hframe.regs, hframe.scan, hframe.plan, hframe.clk, hframe.mem,
    by rw [hframe.hwy], by rw [hframe.hwy], by rw [hframe.hwy], fun hout => hframe.hwy_undriven (boundaryFrame_false hout),
    fun hl hf hall => expireGap_gapSlots (boundaryFrame_true hw hl hf hall) hp, expireGap_resent, expireGap_went,
    expireGap_freed⟩

end Sys2Proof.Machine
end

section
/-! SUPPORT. The joining test of a line that should wait (R126, R127, R130, R131): a grant at once, or a place in the list. -/

namespace Sys2Proof.Machine

/-! ### The test with a sender FREE -/

/-- With a sender FREE nobody waits, and the line is granted that sender. -/
theorem joinTest_attaches {n : LineNo} {k : SenderNo} {s : State} (hw : (s.line n).Wants) (hlist : s.pool.waitList = [])
    (hk : freeSender? s = some k) : joinTest n s = attach false k n (leaveWait n (joinWait n s)) := by
  rw [joinTest_joins hw (by simp [hlist])]
  exact arbitrate_single (s := joinWait n s) (e := ⟨n, s.pool.joins⟩) hk (by simp [joinWait, hlist, insertWait])

theorem listOk_nil (line : LineNo → Line) (joins : Nat) : ListOk line [] joins :=
  ⟨List.nodup_nil, List.nodup_nil, fun _ he => absurd he List.not_mem_nil, .nil⟩

theorem joinTest_attaches_poolLaws {n : LineNo} {k : SenderNo} {s : State} (h : PoolLaws s) (hw : (s.line n).Wants)
    (hlist : s.pool.waitList = []) (hk : freeSender? s = some k) : PoolLaws (joinTest n s) := by
  obtain ⟨hmatch, -⟩ := (poolLaws_iff s).1 h
  obtain ⟨-, hempty, -⟩ := joinTest_granted hw hlist hk
  have hjoined : SendersMatch (leaveWait n (joinWait n s)) := hmatch.congr (fun _ => rfl) fun _ => ⟨rfl, Iff.rfl⟩
  refine (poolLaws_iff _).2 ⟨?_, ?_⟩
  · rw [joinTest_attaches hw hlist hk]
    exact sendersMatch_attach false hjoined hw.2.2 (freeSender?_some (s := s) hk)
  · rw [hempty]
    exact listOk_nil _ _

/-- Where no line waited, and every other that should does, no other should. -/
theorem joinTest_attaches_waitLaw {n : LineNo} {k : SenderNo} {s : State} (hw : (s.line n).Wants)
    (hlist : s.pool.waitList = []) (hk : freeSender? s = some k)
    (hothers : ∀ m, m ≠ n → (s.line m).Wants → s.Waits m) : WaitLaw (joinTest n s) := by
  obtain ⟨⟨hatt, -⟩, -, -, hlines⟩ := joinTest_granted hw hlist hk
  refine (waitLaw_iff _).2 fun m hm => ?_
  by_cases hmn : m = n
  · obtain ⟨-, -, hnone⟩ := hm
    rw [hmn, hatt] at hnone
    cases hnone
  · rw [hlines m hmn] at hm
    obtain ⟨e, he, -⟩ := hothers m hmn hm
    simp [hlist] at he

theorem joinTest_attaches_line {n : LineNo} {k : SenderNo} {s : State} (hw : (s.line n).Wants)
    (hlist : s.pool.waitList = []) (hk : freeSender? s = some k) :
    (joinTest n s).line n = { s.line n with attached := some k } := by
  rw [joinTest_attaches hw hlist hk]
  simp [attach]

/-! ### The test with no sender FREE -/

theorem joinWait_poolLaws {n : LineNo} {s : State} (h : PoolLaws s) (hw : (s.line n).Wants)
    (hn : ∀ e ∈ s.pool.waitList, e.line ≠ n) : PoolLaws (joinWait n s) := by
  obtain ⟨hmatch, hlist⟩ := (poolLaws_iff s).1 h
  refine (poolLaws_iff _).2 ⟨hmatch.congr (fun _ => rfl) fun _ => ⟨rfl, Iff.rfl⟩, listOk_joinWait hlist hw ?_⟩
  exact fun ⟨e, he, hen⟩ => hn e he hen

/-- Every line that should wait does, once line n has joined. -/
theorem joinWait_waitLaw {n : LineNo} {s : State} (hothers : ∀ m, m ≠ n → (s.line m).Wants → s.Waits m) :
    WaitLaw (joinWait n s) := by
  refine (waitLaw_iff _).2 fun m hm => ?_
  by_cases hmn : m = n
  · exact ⟨⟨n, s.pool.joins⟩, insertWait_mem.2 (.inl rfl), hmn.symm⟩
  · obtain ⟨e, he, hem⟩ := hothers m hmn hm
    exact ⟨e, insertWait_mem.2 (.inr he), hem⟩

/-- Settles O30: a FREE sender is granted at once, with none the line joins the list. -/
theorem joiningTestGrants : Obligations.JoiningTestGrants := by
  intro n s hpool harb hmain hstore hatt hn othersWait
  have hw : (s.line n).Wants := ⟨hmain, hstore, hatt⟩
  have hothers : othersWait → ∀ m, m ≠ n → (s.line m).Wants → s.Waits m :=
    fun h m hm ⟨h1, h2, h3⟩ => h m hm h1 h2 h3
  refine ⟨fun k hfree hlow => ?_, fun hnone => ?_⟩
  · have hlist : s.pool.waitList = [] := harb.resolve_left fun h => h k hfree
    have hk := freeSender?_lowest hfree hlow
    obtain ⟨hgrant, hempty, hsend, hlines⟩ := joinTest_granted hw hlist hk
    obtain ⟨⟨-, -, -, -, -, -, hclk, -⟩, -⟩ := joinTest_event n s
    exact ⟨joinTest_attaches_poolLaws hpool hw hlist hk, harb.joinTest n,
      fun h => joinTest_attaches_waitLaw hw hlist hk (hothers h), joinTest_attaches_line hw hlist hk, hlines, hempty, hclk,
      hsend, hgrant⟩
  · rw [joinTest_waits hw hn hnone]
    obtain ⟨-, hok⟩ := (poolLaws_iff s).1 hpool
    obtain ⟨before, after, hplace, hlist, hb, ha⟩ := joinWait_place (n := n) hok
    have hkept : ∀ f ∈ before ++ after, (f.line != n) = true := fun f hf => by
      simpa using hn f (hlist ▸ hf)
    refine ⟨joinWait_poolLaws hpool hw hn, .inl hnone, fun h => joinWait_waitLaw (hothers h), rfl, fun _ => rfl, ?_,
      ⟨n, s.pool.joins⟩, by simp [hplace], rfl, rfl, before, after, hplace, hlist, hb, ha⟩
    rw [hplace, List.filter_append, List.filter_cons_of_neg (by simp), ← List.filter_append, List.filter_eq_self.2 hkept,
      hlist]

end Sys2Proof.Machine
end

section
/-! SUPPORT. The requests INJECT and FLUSH (R122, R124): outcomes, stores and what becomes of the line's place in the pool. -/

namespace Sys2Proof.Machine

/-! ### INJECT (R122) -/

theorem injectOutcome_eq (count : Nat) (l : Line) : injectOutcome count l
    = if l.main ≠ .collecting ∧ l.main ≠ .through then .wrongState
      else if count = 0 ∨ 8 < count then .badOperand
      else if 32 < l.store.length + count then .noRoom
      else .done := by
  have hd : (!l.main.dialling) = true ↔ l.main ≠ .collecting ∧ l.main ≠ .through := by
    rw [Bool.not_eq_true', ← Bool.not_eq_true, dialling_iff, not_or]
  unfold injectOutcome
  by_cases h : l.main ≠ .collecting ∧ l.main ≠ .through
  · rw [if_pos (hd.2 h), if_pos h]
  · rw [if_neg (mt hd.1 h), if_neg h]

/-- What a done INJECT has found: the line dials, and its store takes the keys whole. -/
theorem injectOutcome_done {count : Nat} {l : Line} (h : injectOutcome count l = .done) :
    (l.main = .collecting ∨ l.main = .through) ∧ l.store.length + count ≤ 32 := by
  rw [injectOutcome_eq] at h
  by_cases hm : l.main ≠ .collecting ∧ l.main ≠ .through
  · simp [hm] at h
  · rw [if_neg hm] at h
    split at h
    · cases h
    · split at h
      · cases h
      · exact ⟨by tauto, by omega⟩

/-- The keys of an INJECT, in operand order (R186). -/
def injectedKeys (count : Nat) (keys : Word) : List StoredKey :=
  (operandKeys count keys).map fun k => ⟨k, .injected⟩

theorem injectedKeys_eq (count : Nat) (keys : Word) : injectedKeys count keys
    = (List.range count).map fun i => ⟨Fin.ofNat 16 (keys.toNat / 2 ^ (4 * i) % 16), .injected⟩ := by
  simp [injectedKeys, operandKeys, field]

/-- The keys of a done INJECT go into the store whole. -/
theorem offer_injected {count : Nat} {l : Line} (h : injectOutcome count l = .done) (keys : Word) :
    offer (injectedKeys count keys) l.store = l.store ++ injectedKeys count keys := by
  obtain ⟨-, hroom⟩ := injectOutcome_done h
  exact offer_fits _ _ (by simpa [injectedKeys, operandKeys] using hroom)

theorem doInject_done {n : LineNo} {count : Nat} {keys : Word} {s : State} (h : injectOutcome count (s.line n) = .done) :
    doInject n count keys s = (joinTest n (offerTo n (injectedKeys count keys) s), .done) := by
  simp [doInject, h, injectedKeys]

theorem doInject_refused {n : LineNo} {count : Nat} (keys : Word) {s : State} (h : injectOutcome count (s.line n) ≠ .done) :
    doInject n count keys s = (s, injectOutcome count (s.line n)) := by
  simp [doInject, h]

/-- The line given keys keeps its entry or sender, and joins with neither (R127, R130). -/
theorem offerTo_poolFollows {n : LineNo} {s : State} (ks : List StoredKey)
    (hd : (s.line n).main = .collecting ∨ (s.line n).main = .through) :
    PoolFollows n s (joinTest n (offerTo n ks s)) := by
  have ho : OtherLinesSame n s (offerTo n ks s) := fun m hm => by simp [offerTo, hm]
  refine poolFollows_joinTest (by simpa [offerTo] using hd) (by simp [offerTo]) ho (fun hpool => ?_) fun _ => rfl
  exact goesOnWaiting_same hpool rfl ho (by simp [offerTo]) (by simp [offerTo])

theorem joinTest_offerTo_spec (n : LineNo) (ks : List StoredKey) (s : State) :
    SameButSender { s.line n with store := offer ks (s.line n).store } ((joinTest n (offerTo n ks s)).line n)
      ∧ Recorded [] s (joinTest n (offerTo n ks s)) := by
  have hj := joinTest_event n (offerTo n ks s)
  have hl : (offerTo n ks s).line n = { s.line n with store := offer ks (s.line n).store } := by simp [offerTo]
  obtain ⟨-, hr⟩ := offerTo_records n ks s
  exact ⟨hl ▸ hj.2.1 n, hr.trans hj.recorded⟩

/-- The acknowledgement makes no record (R174). -/
theorem Recorded.acknowledged {n : LineNo} {rs : List Record} {s : State} {r : State × RequestOutcome} (e : Byte)
    (h : Recorded rs s r.1) : Recorded rs s (acknowledge n e r) := by
  obtain ⟨-, -, -, hj, ha, -⟩ := acknowledge_spec n e r
  exact h.congr ⟨rfl, rfl⟩ ⟨hj, ha⟩

theorem SameButSender.acknowledged {n : LineNo} {l : Line} {r : State × RequestOutcome} (e : Byte)
    (h : SameButSender l (r.1.line n)) :
    SameButSender { l with requestEdition := some e, requestOutcome := r.2 } ((acknowledge n e r).line n) := by
  obtain ⟨hl, -⟩ := acknowledge_spec n e r
  rw [hl, h]
  rfl

/-- Settles O46: the keys taken whole, or the store left. -/
theorem injectRequest : Obligations.InjectRequest := by
  intro n e count keys s hw hnew l o injected
  have ho : injectOutcome count.toNat (s.line n) = o := injectOutcome_eq _ _
  have hinj : injectedKeys count.toNat keys = injected := injectedKeys_eq _ _
  refine ⟨_, requestRow_new hw hnew _, ?_⟩
  by_cases hdone : o = .done
  · have hd := ho.trans hdone
    obtain ⟨hline, hrec⟩ := joinTest_offerTo_spec n (injectedKeys count.toNat keys) s
    rw [offer_injected hd, hinj] at hline
    rw [doInject_done hd, if_pos hdone, hdone, hinj]
    rw [hinj] at hrec
    exact ⟨hline.acknowledged e (r := (_, .done)), hrec.acknowledged e,
      fun _ => (offerTo_poolFollows injected (injectOutcome_done hd).1).acknowledged e, fun h => absurd rfl h⟩
  · rw [doInject_refused keys (ho ▸ hdone), if_neg hdone, ho]
    obtain ⟨-, hother, hpool, -⟩ := acknowledge_spec n e (s, o)
    exact ⟨(SameButSender.refl l).acknowledged e (r := (s, o)), (Recorded.refl s).acknowledged e, fun h => absurd h hdone,
      fun _ => ⟨hpool, hother⟩⟩

/-! ### FLUSH (R124) -/

section Flush

variable {n : LineNo} {s : State}

theorem doFlush_outside (h : ¬ (s.line n).main.inCall = true) : doFlush n s = (s, .wrongState) := by
  simp [doFlush, h]

theorem doFlush_empty (h : (s.line n).main.inCall = true) (hs : (s.line n).store = []) : doFlush n s = (s, .done) := by
  simp [doFlush, h, hs]

theorem doFlush_unattached (h : (s.line n).main.inCall = true) (hs : (s.line n).store ≠ [])
    (ha : (s.line n).attached = none) :
    doFlush n s = (leaveWait n (s.setLine n { s.line n with store := [] }), .done) := by
  simp [doFlush, h, hs, ha]

theorem doFlush_attached {k : SenderNo} (h : (s.line n).main.inCall = true) (hs : (s.line n).store ≠ [])
    (ha : (s.line n).attached = some k) : doFlush n s
      = ((s.setLine n { s.line n with store := (s.line n).store.take 1 }).setSender k { s.sender k with flushMark := true },
          .done) := by
  simp [doFlush, h, hs, ha]

end Flush

/-- FLUSH reaches its line and the pool, and makes no record. -/
theorem doFlush_spec (n : LineNo) (s : State) :
    OtherLinesSame n s (doFlush n s).1 ∧ OtherBlocksSame s (doFlush n s).1 ∧ Recorded [] s (doFlush n s).1 := by
  have hset : ∀ l, OtherLinesSame n s (s.setLine n l) := fun l m hm => by simp [hm]
  unfold doFlush
  dsimp only
  split
  · split
    · exact ⟨fun _ _ => rfl, .refl s, .refl s⟩
    · split
      · exact ⟨hset _, ⟨rfl, rfl, rfl, rfl, rfl, rfl, rfl, rfl⟩, recorded_nil.2 ⟨rfl, rfl⟩⟩
      · exact ⟨hset _, ⟨rfl, rfl, rfl, rfl, rfl, rfl, rfl, rfl⟩, recorded_nil.2 ⟨rfl, rfl⟩⟩
  · exact ⟨fun _ _ => rfl, .refl s, .refl s⟩

/-- Settles O47, by main state, store and sender. -/
theorem flushRequest : Obligations.FlushRequest := by
  intro n e s hw hnew l inCall answered
  obtain ⟨hothers, hblocks, hrec⟩ := doFlush_spec n s
  obtain ⟨-, hother, -⟩ := acknowledge_spec n e (doFlush n s)
  have hack : OtherBlocksSame (doFlush n s).1 (acknowledge n e (doFlush n s)) := ⟨rfl, rfl, rfl, rfl, rfl, rfl, rfl, rfl⟩
  have hcall : inCall → (s.line n).main.inCall = true := (inCall_iff _).2
  refine ⟨_, requestRow_new hw hnew _, hothers.trans hother, hblocks.trans hack, hrec.acknowledged e, fun hout => ?_,
    fun hin hs => ?_, fun hin hs ha => ?_, fun k hin hs ha => ?_⟩
  · obtain ⟨hl, -, hp, -⟩ := acknowledge_spec n e (s, .wrongState)
    rw [doFlush_outside fun h => hout ((inCall_iff _).1 h)]
    exact ⟨hl, hp⟩
  · obtain ⟨hl, -, hp, -⟩ := acknowledge_spec n e (s, .done)
    rw [doFlush_empty (hcall hin) hs]
    refine ⟨hl.trans ?_, hp⟩
    have hstore : (s.line n).store = [] := hs
    simp [answered, l, ← hstore]
  · rw [doFlush_unattached (hcall hin) hs ha]
    exact ⟨by simp [acknowledge, answered, l], rfl⟩
  · rw [doFlush_attached (hcall hin) hs ha]
    refine ⟨by simp [acknowledge, answered, l], ?_, fun j hj => ?_, rfl⟩
    · simp [acknowledge]
    · simp [acknowledge, hj]

end Sys2Proof.Machine
end

section
/-! SUPPORT. Edges of a locked clock (O13), the line side of the highway (O33), and what a driven slot carries (O34). -/

namespace Sys2Proof.Machine

/-! ### The next frame of a locked clock (R208) -/

/-- The next frame of a locked clock opens the highway and leaves the blocks that no frame start reaches (R144, R146). -/
theorem nextLockedFrame_blocks (missing : Nat) (s : State) :
    ((nextLockedFrame missing s).hwy.slot = 0 ∧ (nextLockedFrame missing s).hwy.delay = s.hwy.delay
        ∧ ∀ n : LineNo, (nextLockedFrame missing s).hwy.delayed[n] = s.hwy.delay[n].headD 0)
      ∧ (nextLockedFrame missing s).regs = s.regs ∧ (nextLockedFrame missing s).part = s.part
      ∧ (nextLockedFrame missing s).plan = s.plan ∧ (nextLockedFrame missing s).mem = s.mem := by
  obtain ⟨-, -, hslot, hdelay, -, hdelayed⟩ := startFrame_frame (s.lockedFrameEnd missing)
  obtain ⟨hplan, hregs, hpart, hmem, -⟩ := startFrame_blocks (s.lockedFrameEnd missing)
  rw [← nextLockedFrame_eq] at *
  exact ⟨⟨hslot, hdelay, hdelayed⟩, hregs, hpart, hplan, hmem⟩

/-- Where it is frame 0 of a tick, the next frame of a locked clock takes the tick boundary whole (R204). -/
theorem nextLockedFrame_boundary (missing : Nat) {s : State} (h : (s.clk.frame + 1) % 4 = 0) :
    TickTaken s (nextLockedFrame missing s) := by
  obtain ⟨htick, -⟩ := startFrame_boundary (s.lockedFrameEnd missing) h
  exact TickTaken.of_clock (s := s) htick (now_congr rfl rfl rfl rfl) (settle_pendingTime_congr rfl rfl)

/-- Elsewhere it is driven as composed in the state before it (R145, R150). -/
theorem nextLockedFrame_driven (missing : Nat) {s : State} (h : (s.clk.frame + 1) % 4 ≠ 0) :
    DrivenSame s (composeFrame (nextLockedFrame missing s)) := by
  obtain ⟨hdriven, -⟩ := composeFrame_spec (nextLockedFrame missing s)
  obtain ⟨⟨hl, hp, hsc, hj, ha⟩, -⟩ := startFrame_inside (s.lockedFrameEnd missing) h
  have hnow : (nextLockedFrame missing s).now = s.now :=
    (startFrame_inside_now (s.lockedFrameEnd missing) h).trans (now_congr rfl rfl rfl rfl)
  obtain ⟨⟨-, hdelay, -⟩, -⟩ := nextLockedFrame_blocks missing s
  exact hdriven.congr hl hp hsc hj ha hnow hdelay

/-! ### Edges of a locked clock (R208) -/

/-- The clock stands at the edge's cycle; the edge is ignored there or starts the next frame (R208). -/
theorem xfsEdge_locked {cycle : Nat} {s : State} (hw : s.part.phase = .working) (hl : s.clk.state = .locked)
    (hage : s.clk.frameAge ≤ cycle) (hmax : cycle ≤ 2637) :
    (cycle < 2483 → exec (.xfsEdge cycle) s = .next { s with clk := s.clk.passTo cycle })
      ∧ (2483 ≤ cycle →
        exec (.xfsEdge cycle) s = .next (composeFrame (nextLockedFrame 0 { s with clk := s.clk.passTo cycle }))) := by
  have hlim : cycle ≤ s.clk.frameLimit := by simpa [Clock.frameLimit, hl] using hmax
  have hedge : takeEdge { s with clk := s.clk.passTo cycle } = lockedEdge { s with clk := s.clk.passTo cycle } := by
    have hstate : (s.clk.passTo cycle).state = .locked := hl
    simp [takeEdge, hstate]
  have hexec : exec (.xfsEdge cycle) s = .next (lockedEdge { s with clk := s.clk.passTo cycle }) := by
    rw [← hedge]
    exact whenDue_true (by simp [working_iff.2 hw, hage, hlim]) _ _
  rw [hexec]
  exact ⟨fun h => congrArg _ (if_pos h), fun h => congrArg _ (if_neg (Nat.not_lt.2 h))⟩

/-- Settles O13: an early edge moves the clock alone; any other starts the next frame at its cycle and drives it. -/
theorem edgesPaceTheLockedClock : Obligations.EdgesPaceTheLockedClock := by
  intro cycle s hw hl hage hmax
  obtain ⟨hearly, hpaces⟩ := xfsEdge_locked hw hl hage hmax
  refine ⟨hearly, fun hmin => ⟨_, hpaces hmin, ?_⟩⟩
  obtain ⟨hst, hfr, hfa, hmiss, hsp, hdiv, hsince, -⟩ := nextLockedFrame_spec 0 { s with clk := s.clk.passTo cycle }
  obtain ⟨⟨hslot, hdelay, hdelayed⟩, hregs, hpart, hplan, hmem⟩ :=
    nextLockedFrame_blocks 0 { s with clk := s.clk.passTo cycle }
  obtain ⟨hdriven, -⟩ := composeFrame_spec (nextLockedFrame 0 { s with clk := s.clk.passTo cycle })
  obtain ⟨-, -, -, -, -, -, -, hslots, -⟩ := id hdriven
  refine ⟨hst.trans hl, hfr, hfa, hmiss, hsp, hdiv, hsince, hslot, hdelay, fun n => ?_, hdelayed, hregs, hpart, hplan, hmem,
    nextLockedFrame_window 0 { s with clk := s.clk.passTo cycle }, fun hf => ?_, fun hf => ⟨_, ?_, hdelay, hdriven⟩⟩
  · rw [hslots n]
    exact Option.some_ne_none _
  · exact (nextLockedFrame_driven 0 (s := { s with clk := s.clk.passTo cycle }) hf).congr rfl rfl rfl rfl rfl
      (now_congr rfl rfl rfl rfl) rfl
  · exact (nextLockedFrame_boundary 0 (s := { s with clk := s.clk.passTo cycle }) hf).of_clock
      (now_congr rfl rfl rfl rfl) (settle_pendingTime_congr rfl rfl)

/-! ### The line side (R144, R146) -/

/-- Settles O33: the slot that is next is taken into its own delay line, any other is no event. -/
theorem lineSlotsEnterTheDelay : Obligations.LineSlotsEnterTheDelay := by
  intro channel sample s hw
  refine ⟨fun hslot => ?_, fun hslot => ?_⟩
  · have hdue : (s.working && s.hwy.slot == channel.val) = true := by simp [working_iff.2 hw, hslot]
    refine ⟨_, whenDue_true hdue _ _, rfl, rfl, rfl, rfl, by simp [shiftDelay], fun m hm => ?_⟩
    have hne : channel.val ≠ m.val := fun h => hm (Fin.ext h.symm)
    simp [hne]
  · exact whenDue_false (by simp [hslot]) _ _

/-! ### Tone values (R150, R154) -/

theorem component_eq_fdiv (amplitude : Nat) (entry : Int) :
    component amplitude entry = ((amplitude : Int) * entry).fdiv 32768 :=
  (Int.fdiv_eq_ediv_of_nonneg _ (by decide)).symm

theorem saturate_eq (v : Int) : saturate v = if v < -32767 then -32767 else if 32767 < v then 32767 else v := by
  unfold saturate
  omega

theorem saturate_range (v : Int) : -32767 ≤ saturate v ∧ saturate v ≤ 32767 := by
  unfold saturate
  omega

/-- A saturated value is a sample other than −32768 (R154). -/
theorem ofInt_saturate_ne (v : Int) : BitVec.ofInt 16 (saturate v) ≠ 0x8000 := by
  obtain ⟨hmin, hmax⟩ := saturate_range v
  have hint : (BitVec.ofInt 16 (saturate v)).toInt = saturate v :=
    BitVec.toInt_ofInt_eq_self (by decide) (by omega) (by omega)
  intro h
  rw [h, show (0x8000 : BitVec 16).toInt = -32768 by decide] at hint
  omega

theorem sounding_iff (p : Profile) (x : Sender) :
    sounding p x = true ↔ x.state = .on ∧ x.begun = true ∧ x.timer < p.tOn := by
  simp [sounding, and_assoc]

/-- The slot of a line with an attached sender: tone in a burst, and 0 outside one (R149, R150). -/
theorem outputSample_attached {s : State} {n : LineNo} {k : SenderNo} {p : Profile} (ha : (s.line n).attached = some k)
    (hp : (s.line n).adopted = some p) :
    outputSample s n = if sounding p (s.sender k) then toneSample p (s.sender k) else 0 := by
  rw [outputSample, slotSample_tone ha, toneOutput]
  simp only [ha, hp]

/-- A line with neither a sender nor a profile carries its delayed sample (R149). -/
theorem outputSample_unprofiled {s : State} {n : LineNo} (ha : (s.line n).attached = none)
    (hp : (s.line n).adopted = none) : outputSample s n = s.hwy.delay[n].headD 0 := by
  have hpath : (s.line n).path = .pass := by simp [Line.path, ha, hp]
  simp only [outputSample, slotSample, hpath, delayedSample]

/-! ### The sine table (R153) -/

/-- The second half of the table is the first, its sign changed (R153). -/
theorem sineEntry_odd {i : Nat} (h1 : 1 ≤ i) (h2 : i ≤ 127) : sineEntry (256 - i) = -sineEntry i := by
  obtain ⟨hsecond, hthird, hfourth⟩ := sineEntry_symmetries
  by_cases hi : i < 64
  · rw [hfourth (256 - i) (by omega) (by omega), show 256 - (256 - i) = i by omega]
  · rw [hthird (256 - i) (by omega) (by omega), show 256 - i - 128 = 128 - i by omega]
    rcases Nat.eq_or_lt_of_not_lt hi with rfl | hlt
    · rfl
    · rw [hsecond i (by omega) hlt]

theorem sineQuarter_le (i : Nat) : sineQuarter.getD i 0 ≤ 32767 := by
  have hall : ∀ v ∈ sineQuarter, v ≤ 32767 := by decide
  rw [List.getD_eq_getElem?_getD]
  cases h : sineQuarter[i]? with
  | none => exact Nat.zero_le _
  | some v => exact hall v (List.mem_of_getElem? h)

theorem sineEntry_range (i : Nat) : -32767 ≤ sineEntry i ∧ sineEntry i ≤ 32767 := by
  have h := sineQuarter_le
  unfold sineEntry
  split
  · have := h i; omega
  · split
    · have := h (128 - i); omega
    · split
      · have := h (i - 128); omega
      · have := h (256 - i); omega

/-- Settles O34: the slot by attachment and profile, the table by its symmetries, the increments key by key. -/
theorem drivenSlotsAndTones : Obligations.DrivenSlotsAndTones := by
  refine ⟨fun n s => ?_, sineEntry_rounds, ⟨fun i => sineEntry_odd, by decide, by decide, by decide, by decide, by decide,
    by decide, by decide, by decide, fun i _ => sineEntry_range i, by decide, by decide⟩⟩
  refine ⟨fun k p ha hp => ⟨fun hon hb ht => ?_, fun hout => ?_⟩, fun p ha hp => slotSample_unattached ha hp _,
    outputSample_unprofiled⟩
  · rw [outputSample_attached ha hp, if_pos ((sounding_iff p _).2 ⟨hon, hb, ht⟩)]
    refine ⟨?_, ofInt_saturate_ne _⟩
    rw [toneSample, toneValue, saturate_eq, component_eq_fdiv, component_eq_fdiv]
    rfl
  · have hsilent : ¬ sounding p (s.sender k) = true := fun h => by
      obtain ⟨hon, hb, ht⟩ := (sounding_iff p _).1 h
      rcases hout with hout | hout | hout
      · exact hout hon
      · simp [hb] at hout
      · omega
    rw [outputSample_attached ha hp, if_neg hsilent]

end Sys2Proof.Machine
end

section
/-! SUPPORT. The port as a machine of its own (R161, R162, R194, R213, R215, R218): its state, its queue and the kind of the
sequence in flight, the moves that commands make of them, and the laws that every move keeps. -/

namespace Sys2Proof.Machine

/-! ### What the laws of the port read -/

/-- The request that a sequence of a kind serves; the STARTING sequence serves none (R161, R218). -/
def SequenceKind.request? : SequenceKind → Option PortRequest
  | .starting => none
  | .lineVisit _ => some .visit
  | .headerVisit => some .visit
  | .journal => some .journal

/-- The port state, the queue, and the kind of the sequence in flight. -/
structure PortView where
  port : PortState
  queue : List PortRequest
  kind : Option SequenceKind

/-- The request being served. -/
def PortView.serving (v : PortView) : Option PortRequest := v.kind.bind SequenceKind.request?

def AreaController.view (a : AreaController) : PortView := ⟨a.port, a.queue, a.inFlight.map (·.kind)⟩

/-- The laws of the port, in terms of its view (R161, R213, R218). -/
structure PortView.Lawful (v : PortView) : Prop where
  once : ∀ r, v.queue.count r ≤ 1
  apart : ∀ r, v.serving = some r → r ∉ v.queue
  running : v.port ≠ .running → v.queue = []
  still : v.port = .idle ∨ v.port = .faulted → v.kind = none
  busy : v.port = .starting ∨ v.port = .halting → v.kind ≠ none
  starting : ∀ k, v.kind = some k → (k = .starting ↔ v.port = .starting)

theorem visiting_iff (a : AreaController) : a.visiting = true ↔ a.view.serving = some .visit := by
  unfold AreaController.visiting AreaController.view PortView.serving
  cases a.inFlight with
  | none => simp
  | some q => cases hk : q.kind <;> simp [SequenceKind.request?, hk]

theorem journalling_iff (a : AreaController) : a.journalling = true ↔ a.view.serving = some .journal := by
  unfold AreaController.journalling AreaController.view PortView.serving
  cases a.inFlight with
  | none => simp
  | some q => cases hk : q.kind <;> simp [SequenceKind.request?, hk]

theorem portLaws_iff (s : State) : PortLaws s ↔ s.arc.view.Lawful := by
  constructor
  · rintro ⟨hvisit, hjournal, hv, hj, hrun, hstill, hbusy, hstart⟩
    refine ⟨fun r => ?_, fun r hr => ?_, hrun, fun h => by simp [AreaController.view, hstill h],
      fun h => by simpa [AreaController.view] using hbusy h, fun k hk => ?_⟩
    · cases r
      · exact hvisit
      · exact hjournal
    · cases r
      · exact hv ((visiting_iff _).2 hr)
      · exact hj ((journalling_iff _).2 hr)
    · obtain ⟨q, hq, rfl⟩ := Option.map_eq_some_iff.1 hk
      exact hstart q hq
  · intro h
    exact ⟨h.once .visit, h.once .journal, fun hv => h.apart _ ((visiting_iff _).1 hv),
      fun hj => h.apart _ ((journalling_iff _).1 hj), h.running, fun hp => Option.map_eq_none_iff.1 (h.still hp),
      fun hp hq => h.busy hp (by simp [AreaController.view, hq]),
      fun q hq => h.starting q.kind (by simp [AreaController.view, hq])⟩

/-! ### The moves of the port -/

/-- What one part of a command can make of the port. -/
inductive PortMove : PortView → PortView → Prop
  /-- A request joins the queue of a running port, none of its kind being queued or served (R162, R194). -/
  | ask (r : PortRequest) {queue : List PortRequest} {kind : Option SequenceKind} (hq : r ∉ queue)
      (hs : kind.bind SequenceKind.request? ≠ some r) : PortMove ⟨.running, queue, kind⟩ ⟨.running, queue ++ [r], kind⟩
  /-- The oldest request is served (R161). -/
  | serve {r : PortRequest} {queue : List PortRequest} {kind : SequenceKind} (hk : kind.request? = some r) :
      PortMove ⟨.running, r :: queue, none⟩ ⟨.running, queue, some kind⟩
  /-- A sequence of a request ends (R164, R179, R195). -/
  | finish {port : PortState} {queue : List PortRequest} {kind : SequenceKind} (hk : kind ≠ .starting)
      (hp : port ≠ .halting) : PortMove ⟨port, queue, some kind⟩ ⟨port, queue, none⟩
  /-- The sequence that a HALT waits for ends (R215). -/
  | finishHalting {queue : List PortRequest} {kind : Option SequenceKind} :
      PortMove ⟨.halting, queue, kind⟩ ⟨.idle, queue, none⟩
  /-- A RUN begins the STARTING sequence (R215, R218). -/
  | run {queue : List PortRequest} {kind : Option SequenceKind} :
      PortMove ⟨.idle, queue, kind⟩ ⟨.starting, queue, some .starting⟩
  /-- The STARTING sequence ends with a good header (R218). -/
  | started {port : PortState} {queue : List PortRequest} :
      PortMove ⟨port, queue, some .starting⟩ ⟨.running, queue, none⟩
  /-- The STARTING sequence ends after a HALT (R215). -/
  | giveUp {port : PortState} {queue : List PortRequest} : PortMove ⟨port, queue, some .starting⟩ ⟨.idle, queue, none⟩
  /-- A HALT of a running port withdraws the requests, and waits for a sequence in flight (R161, R215). -/
  | halt {queue : List PortRequest} {kind : Option SequenceKind} :
      PortMove ⟨.running, queue, kind⟩ ⟨if kind.isNone then .idle else .halting, [], kind⟩
  /-- A fault of the port (R218). -/
  | fault {v : PortView} : PortMove v ⟨.faulted, [], none⟩
  /-- A CLEAR_FAULT (R215). -/
  | clearFault {queue : List PortRequest} {kind : Option SequenceKind} :
      PortMove ⟨.faulted, queue, kind⟩ ⟨.idle, queue, kind⟩
  /-- A reset of the part (R219). -/
  | reset {v : PortView} : PortMove v ⟨.idle, [], none⟩

abbrev PortMoves : PortView → PortView → Prop := Relation.ReflTransGen PortMove

/-- A port at rest, with nothing queued and nothing in flight. -/
theorem PortView.Lawful.rest {port : PortState} (hs : port ≠ .starting) (hh : port ≠ .halting) :
    PortView.Lawful ⟨port, [], none⟩ where
  once r := by simp
  apart r h := by simp
  running _ := rfl
  still _ := rfl
  busy h := (h.elim hs hh).elim
  starting k h := by simp at h

/-- With nothing queued, an end of the sequence in flight leaves nothing to hold to. -/
theorem PortView.Lawful.ended {port : PortState} {queue : List PortRequest} {kind : Option SequenceKind}
    (h : PortView.Lawful ⟨port, queue, kind⟩) (hp : port ≠ .running) {port' : PortState} (hs : port' ≠ .starting)
    (hh : port' ≠ .halting) : PortView.Lawful ⟨port', queue, none⟩ := by
  obtain rfl : queue = [] := h.running hp
  exact .rest hs hh

theorem PortMove.lawful {v w : PortView} (hm : PortMove v w) (h : v.Lawful) : w.Lawful := by
  cases hm with
  | @ask r queue kind hq hs =>
    refine ⟨fun r' => ?_, fun r' hr' => ?_, fun hp => (hp rfl).elim, h.still, h.busy, h.starting⟩
    · by_cases hr : r' = r
      · subst hr; simp [List.count_append, List.count_eq_zero.2 hq]
      · simpa [List.count_append, List.count_singleton, Ne.symm hr] using h.once r'
    · have hne : r' ≠ r := by
        rintro rfl
        exact hs hr'
      simpa [hne] using h.apart r' hr'
  | @serve r queue kind hk =>
    have hcount : (r :: queue).count r ≤ 1 := h.once r
    rw [List.count_cons_self] at hcount
    refine ⟨fun r' => (List.count_le_count_cons).trans (h.once r'), fun r' hr' => ?_, fun hp => (hp rfl).elim, ?_, ?_, ?_⟩
    · obtain rfl : r = r' := Option.some.inj (hk.symm.trans hr')
      exact List.count_eq_zero.1 (show queue.count r = 0 by omega)
    · simp
    · simp
    · rintro k hk'
      obtain rfl : kind = k := Option.some.inj hk'
      cases kind <;> simp [SequenceKind.request?] at hk ⊢
  | @finish port queue kind hk hp =>
    have hstart : port ≠ .starting := fun hs => hk ((h.starting kind rfl).2 hs)
    refine ⟨h.once, fun r hr => by simp [PortView.serving] at hr, h.running, fun _ => rfl,
      fun hb => (hb.elim hstart hp).elim, fun k hk' => by simp at hk'⟩
  | finishHalting => exact h.ended (by simp) (by simp) (by simp)
  | run =>
    obtain rfl := h.running (by simp)
    refine ⟨by simp, by simp, fun _ => rfl, by simp, by simp, fun k hk => ?_⟩
    obtain rfl := Option.some.inj hk
    simp
  | @started port queue =>
    obtain rfl : port = .starting := (h.starting _ rfl).1 rfl
    exact h.ended (by simp) (by simp) (by simp)
  | @giveUp port queue =>
    obtain rfl : port = .starting := (h.starting _ rfl).1 rfl
    exact h.ended (by simp) (by simp) (by simp)
  | @halt queue kind =>
    cases kind with
    | none => exact .rest (by simp) (by simp)
    | some k =>
      refine ⟨by simp, by simp, fun _ => rfl, by simp, by simp, fun k' hk' => ?_⟩
      have := h.starting k' hk'
      simpa using this
  | fault => exact .rest (by simp) (by simp)
  | @clearFault queue kind =>
    obtain rfl : kind = none := h.still (.inr rfl)
    exact h.ended (by simp) (by simp) (by simp)
  | reset => exact .rest (by simp) (by simp)

theorem PortMoves.lawful {v w : PortView} (hm : PortMoves v w) (h : v.Lawful) : w.Lawful := by
  induction hm with
  | refl => exact h
  | tail _ hm ih => exact hm.lawful ih

end Sys2Proof.Machine
end

section
/-! SUPPORT. What a command reaches of the port, the bases, the ATTENTION bits and memory, said once of every operation, and with
it the laws of the port (O54), of alignment and of memory (O55), and what changes memory and ATTENTION (O3). -/

namespace Sys2Proof.Machine

/-! ### Alignment (R159, R189, R214) -/

theorem aligned_mod (a : Word) : (aligned a).toNat % 4 = 0 := by
  have h : (a.toNat &&& 4294967292) % 2 ^ 2 = 0 := by rw [Nat.and_mod_two_pow]; simp
  simpa [aligned, BitVec.toNat_and] using h

/-- The alignment laws read three bases, and those of the sequence in flight. -/
theorem AlignmentLaws.congr {s t : State} (h : AlignmentLaws s) (hr : t.regs.areaBase = s.regs.areaBase)
    (hb : t.arc.base = s.arc.base) (hj : t.jnl.base = s.jnl.base)
    (hq : ∀ q, t.arc.inFlight = some q → q.base.toNat % 4 = 0 ∧ q.planAddress.toNat % 4 = 0) : AlignmentLaws t := by
  obtain ⟨h1, h2, h3, -⟩ := h
  exact ⟨by rwa [hr], by rwa [hb], by rwa [hj], hq⟩

theorem AlignmentLaws.inFlight {s : State} (h : AlignmentLaws s) :
    ∀ q, s.arc.inFlight = some q → q.base.toNat % 4 = 0 ∧ q.planAddress.toNat % 4 = 0 := by
  obtain ⟨-, -, -, hflight⟩ := h
  exact hflight

/-! ### What an operation reaches -/

theorem and_or_self {w : Nat} (a b : BitVec w) : a &&& (a ||| b) = a := by
  ext i hi
  simp +contextual

/-- Moves of the port, bases that stay aligned, ATTENTION bits that stay set, memory as it was. -/
structure PortStep (s t : State) : Prop where
  moves : PortMoves s.arc.view t.arc.view
  aligned : AlignmentLaws s → AlignmentLaws t
  attention : s.regs.attention &&& t.regs.attention = s.regs.attention
  mem : t.mem = s.mem

theorem PortStep.refl (s : State) : PortStep s s := ⟨.refl, id, BitVec.and_self, rfl⟩

theorem PortStep.trans {s t u : State} (h : PortStep s t) (h' : PortStep t u) : PortStep s u where
  moves := h.moves.trans h'.moves
  aligned := h'.aligned ∘ h.aligned
  attention := by rw [← h.attention, BitVec.and_assoc, h'.attention]
  mem := h'.mem.trans h.mem

/-- An operation that leaves registers, memory, and what the laws read of the port and the journal. -/
theorem portStep_rest {s t : State} (hv : t.arc.view = s.arc.view := by rfl) (hb : t.arc.base = s.arc.base := by rfl)
    (hq : t.arc.inFlight = s.arc.inFlight := by rfl) (hj : t.jnl.base = s.jnl.base := by rfl)
    (hr : t.regs = s.regs := by rfl) (hm : t.mem = s.mem := by rfl) : PortStep s t where
  moves := by rw [hv]
  aligned h := h.congr (by rw [hr]) hb hj (by rw [hq]; exact h.inFlight)
  attention := by rw [hr, BitVec.and_self]
  mem := hm

/-! ### Requests and records (R162, R192, R194) -/

/-- A request that joins the queue, if it may. -/
theorem portStep_ask {s t : State} (r : PortRequest) (hq : t.arc.queue = s.arc.queue
      ∨ (s.arc.port = .running ∧ r ∉ s.arc.queue ∧ s.arc.view.serving ≠ some r) ∧ t.arc.queue = s.arc.queue ++ [r])
    (hp : t.arc.port = s.arc.port) (hb : t.arc.base = s.arc.base) (hf : t.arc.inFlight = s.arc.inFlight)
    (hj : t.jnl.base = s.jnl.base) (hr : t.regs = s.regs) (hm : t.mem = s.mem) : PortStep s t where
  moves := by
    rcases hq with hq | ⟨⟨hrun, hmem, hserve⟩, hq⟩
    · rw [show t.arc.view = s.arc.view by simp [AreaController.view, hp, hq, hf]]
    · have hs : s.arc.view = ⟨.running, s.arc.queue, s.arc.inFlight.map (·.kind)⟩ := by simp [AreaController.view, hrun]
      have ht : t.arc.view = ⟨.running, s.arc.queue ++ [r], s.arc.inFlight.map (·.kind)⟩ := by
        simp [AreaController.view, hp, hq, hf, hrun]
      rw [hs, ht]
      exact .single (.ask r hmem hserve)
  aligned h := h.congr (by rw [hr]) hb hj (by rw [hf]; exact h.inFlight)
  attention := by rw [hr, BitVec.and_self]
  mem := hm

theorem stages_base (rs : List Record) (j : JournalUnit) : (rs.foldl JournalUnit.stage j).base = j.base := by
  induction rs generalizing j with
  | nil => rfl
  | cons r rest ih =>
    rw [List.foldl_cons, ih, JournalUnit.stage_eq]

theorem portStep_recorded {rs : List Record} {s t : State} (h : Recorded rs s t) (hr : t.regs = s.regs)
    (hm : t.mem = s.mem) : PortStep s t := by
  obtain ⟨hj, ha⟩ := h
  have hbase : t.jnl.base = s.jnl.base := by rw [hj, stages_base]
  split at ha
  · rename_i hc
    obtain ⟨-, hrun, hq, hjnl, -⟩ := hc
    have hserve : s.arc.view.serving ≠ some .journal := fun h => by simp [(journalling_iff _).2 h] at hjnl
    exact portStep_ask .journal (.inr ⟨⟨hrun, hq, hserve⟩, by rw [ha]⟩) (by rw [ha]) (by rw [ha]) (by rw [ha]) hbase hr hm
  · exact portStep_rest (by rw [ha]) (by rw [ha]) (by rw [ha]) hbase hr hm

theorem LineStep.portStep {n : LineNo} {s t : State} (h : LineStep n s t) : PortStep s t := by
  obtain ⟨-, -, hr, -, -, -, -, hm⟩ := h.event.1
  obtain ⟨rs, hrec, -⟩ := h.records
  exact portStep_recorded hrec hr hm

theorem portStep_sampleLines (frame : BitVec 192) (d : DevTime) (ns : List LineNo) (s : State) :
    PortStep s (sampleLines frame d ns s) := by
  induction ns generalizing s with
  | nil => exact .refl s
  | cons n rest ih => exact (lineStep_sampleLine _ n d s).portStep.trans (ih _)

theorem portStep_handOver (r : Record) (s : State) : PortStep s (handOver r s) :=
  portStep_recorded (handOver_recorded r s) (handOver_regs r s) (handOver_mem r s)

theorem journalWanted_iff (s : State) : journalWanted s = true ↔ s.arc.port = .running
    ∧ (s.jnl.staging ≠ [] ∨ s.jnl.publish = true) ∧ PortRequest.journal ∉ s.arc.queue ∧ s.arc.journalling = false
    ∧ s.jnl.holdOff = false := by
  simp [journalWanted, and_assoc]

theorem portStep_requestJournal (s : State) : PortStep s (requestJournal s) := by
  rcases requestJournal_cases s with ⟨hw, h⟩ | ⟨-, h⟩ <;> rw [h]
  · obtain ⟨hrun, -, hq, hjnl, -⟩ := (journalWanted_iff s).1 hw
    have hserve : s.arc.view.serving ≠ some .journal := fun h => by simp [(journalling_iff _).2 h] at hjnl
    exact portStep_ask .journal (.inr ⟨⟨hrun, hq, hserve⟩, rfl⟩) rfl rfl rfl rfl rfl rfl
  · exact .refl s

/-! ### The clock's steps and the senders' (R134, R135, R162, R204, R209) -/

theorem TickTaken.portStep {s t : State} (h : TickTaken s t) (hr : t.regs = s.regs) (hm : t.mem = s.mem) :
    PortStep s t := by
  obtain ⟨-, -, -, -, -, -, hj, ha⟩ := h
  have hbase : t.jnl.base = s.jnl.base := by rw [hj]
  refine portStep_ask .visit ?_ (by rw [ha]) (by rw [ha]) (by rw [ha]) hbase hr hm
  rw [ha]
  by_cases hc : s.arc.port = .running ∧ PortRequest.visit ∉ s.arc.queue ∧ s.arc.visiting = false
  · refine .inr ⟨?_, if_pos hc⟩
    obtain ⟨hrun, hq, hv⟩ := hc
    exact ⟨hrun, hq, fun hs => by simp [(visiting_iff _).2 hs] at hv⟩
  · exact .inl (if_neg hc)

theorem portStep_tickBoundary (s : State) : PortStep s (tickBoundary s) := by
  obtain ⟨htick, -, -, hregs, -, -, hmem, -⟩ := tickBoundary_spec s
  exact htick.portStep hregs hmem

theorem portStep_startFrame (s : State) : PortStep s (startFrame s) := by
  obtain ⟨-, hregs, -, hmem, -⟩ := startFrame_blocks s
  by_cases h : (s.clk.frame + 1) % 4 = 0
  · exact (startFrame_boundary s h).1.portStep hregs hmem
  · obtain ⟨⟨-, -, -, hj, ha⟩, -⟩ := startFrame_inside s h
    exact portStep_rest (by rw [ha]) (by rw [ha]) (by rw [ha]) (by rw [hj]) hregs hmem

theorem portStep_setAttention (bits : BitVec 4) (s : State) : PortStep s (setAttention bits s) :=
  ⟨.refl, id, and_or_self _ _, rfl⟩

theorem portStep_changeClock (st : ClockState) (s : State) : PortStep s (changeClock st s) := by
  obtain ⟨-, hrec, hregs, -, -, -, -, hmem, -⟩ := changeClock_spec st s
  have h1 : PortStep s { changeClock st s with regs := s.regs } :=
    portStep_recorded (hrec.congr ⟨rfl, rfl⟩ ⟨rfl, rfl⟩) rfl hmem
  refine ⟨h1.moves, fun h => (h1.aligned h).congr (by rw [hregs]) rfl rfl (h1.aligned h).inFlight, ?_, hmem⟩
  rw [hregs]
  exact and_or_self _ _

theorem portStep_composeFrame (s : State) : PortStep s (composeFrame s) := portStep_rest

theorem SenderFrame.portStep {rs : List Record} {s t : State} (h : SenderFrame s t) (hr : Recorded rs s t) : PortStep s t :=
  portStep_recorded hr h.regs h.mem

theorem takeBurstExpiry_recorded (k : SenderNo) (s : State) : Recorded [] s (takeBurstExpiry k s) := by
  unfold takeBurstExpiry
  split
  · split
    · exact (setSender_recorded k _ s).trans (recompose_recorded _ _)
    · exact .refl s
  · exact .refl s

theorem portStep_takeBurstExpiry (k : SenderNo) (s : State) : PortStep s (takeBurstExpiry k s) :=
  (senderFrame_takeBurstExpiry k s).portStep (takeBurstExpiry_recorded k s)

theorem portStep_takeGapExpiry (k : SenderNo) (s : State) : PortStep s (takeGapExpiry k s) := by
  unfold takeGapExpiry
  split
  · split
    · obtain ⟨rs, hr, -⟩ := expireGap_recorded k _ s
      exact (senderFrame_expireGap k _ s).portStep hr
    · exact .refl s
  · exact .refl s

theorem portStep_enterLocked (s : State) : PortStep s (enterLocked s) := by
  rw [enterLocked_eq]
  have h1 : PortStep s { startFrame s with clk := (startFrame s).clk.lockMarks } := (portStep_startFrame s).trans portStep_rest
  exact (h1.trans (portStep_changeClock .locked _)).trans (portStep_composeFrame _)

theorem portStep_nextLockedFrame (missing : Nat) (s : State) : PortStep s (nextLockedFrame missing s) :=
  PortStep.trans (t := s.lockedFrameEnd missing) portStep_rest (portStep_startFrame _)

theorem portStep_takeEdge (s : State) : PortStep s (takeEdge s) := by
  have hout : ∀ c : Clock, PortStep s (changeClock .qualifying { s with clk := c }) := fun c =>
    PortStep.trans (t := { s with clk := c }) portStep_rest (portStep_changeClock .qualifying _)
  unfold takeEdge
  split
  · exact hout _
  · exact hout _
  · simp only [qualifyEdge]
    split
    · split
      · exact portStep_enterLocked s
      · exact portStep_rest
    · exact portStep_rest
  · unfold lockedEdge
    split
    · exact .refl s
    · exact (portStep_nextLockedFrame 0 s).trans (portStep_composeFrame _)

theorem portStep_filledFrame {s t : State} (he : execFilledFrame s = .next t) : PortStep s t := by
  have hfill : PortStep s s.filled :=
    PortStep.trans (t := { s with clk := s.clk.passTo Config.maxSpacing }) portStep_rest (portStep_nextLockedFrame _ _)
  refine whenDue_keeps he (.refl s) fun _ => ?_
  change PortStep s (if 4 ≤ s.clk.missing + 1 then loseReference (expiriesBeforeLoss s.filled) else composeFrame s.filled)
  split
  · obtain ⟨-, ⟨-, -, hx, -⟩, -⟩ := filled_spec s
    obtain ⟨-, -, hr, -, -, -, -, hm⟩ := expiriesBeforeLoss_blocks hx
    obtain ⟨rs, hrec, -⟩ := expiriesBeforeLoss_recorded s.filled
    have hexp : PortStep s.filled (expiriesBeforeLoss s.filled) := portStep_recorded hrec hr hm
    have hlose : PortStep (expiriesBeforeLoss s.filled) (loseReference (expiriesBeforeLoss s.filled)) :=
      PortStep.trans portStep_rest (portStep_changeClock .holdover _)
    exact (hfill.trans hexp).trans hlose
  · exact hfill.trans (portStep_composeFrame _)

/-! ### The steps of sequences (R161, R164, R179, R195, R218) -/

/-- One move of the port. -/
theorem portStep_move {s t : State} (h : PortMove s.arc.view t.arc.view) (ha : AlignmentLaws s → AlignmentLaws t)
    (hr : t.regs = s.regs) (hm : t.mem = s.mem) : PortStep s t :=
  ⟨.single h, ha, by rw [hr, BitVec.and_self], hm⟩

/-- The view of a port with sequence q in flight. -/
theorem view_inFlight {a : AreaController} {q : Sequence} (h : a.inFlight = some q) :
    a.view = ⟨a.port, a.queue, some q.kind⟩ := by simp [AreaController.view, h]

theorem view_idle {a : AreaController} (h : a.inFlight = none) : a.view = ⟨a.port, a.queue, none⟩ := by
  simp [AreaController.view, h]

/-- Nothing in flight, nothing to align but the three bases. -/
theorem AlignmentLaws.noSequence {s t : State} (h : AlignmentLaws s) (hr : t.regs.areaBase = s.regs.areaBase := by rfl)
    (hb : t.arc.base = s.arc.base := by rfl) (hj : t.jnl.base = s.jnl.base := by rfl)
    (hq : t.arc.inFlight = none := by rfl) : AlignmentLaws t := h.congr hr hb hj (by simp [hq])

/-- The sequence in flight goes on: its kind and base stay, and a plan image address it takes is aligned (R180). -/
theorem portStep_putSequence {s : State} {q q' : Sequence} (hq : s.arc.inFlight = some q) (hk : q'.kind = q.kind)
    (hb : q'.base = q.base) (hp : q'.planAddress = q.planAddress ∨ q'.planAddress.toNat % 4 = 0) :
    PortStep s (putSequence q' s) where
  moves := by
    have hv : (putSequence q' s).arc.view = s.arc.view := by
      rw [view_inFlight hq, ← hk]
      exact view_inFlight rfl
    rw [hv]
  aligned h := by
    obtain ⟨hbase, hplan⟩ := h.inFlight q hq
    refine h.congr rfl rfl rfl fun q0 hq0 => ?_
    obtain rfl : q' = q0 := Option.some.inj hq0
    refine ⟨by rwa [hb], ?_⟩
    rcases hp with hp | hp
    · rwa [hp]
    · exact hp
  attention := BitVec.and_self
  mem := rfl

/-- The state with no sequence in flight. -/
def State.sequenceEnded (s : State) : State := { s with arc := { s.arc with inFlight := none, busWait := 0 } }

theorem endSequence_halting {s : State} (h : s.arc.port = .halting) : endSequence s = portIdle s := if_pos h

theorem endSequence_goesOn {s : State} (h : s.arc.port ≠ .halting) : endSequence s = requestJournal s.sequenceEnded :=
  if_neg h

/-- A sequence of a request ends; the Journal Unit may ask for the next (R194, R215). -/
theorem portStep_endSequence {s : State} {q : Sequence} (hq : s.arc.inFlight = some q) (hk : q.kind ≠ .starting) :
    PortStep s (endSequence s) := by
  by_cases hp : s.arc.port = .halting
  · rw [endSequence_halting hp]
    refine portStep_move ?_ (fun ha => ha.noSequence) rfl rfl
    rw [view_inFlight hq, hp]
    exact .finishHalting
  · rw [endSequence_goesOn hp]
    have hend : PortStep s s.sequenceEnded := by
      refine portStep_move ?_ (fun ha => ha.noSequence) rfl rfl
      rw [view_inFlight hq]
      exact .finish hk hp
    exact hend.trans (portStep_requestJournal _)

theorem portStep_portFault (code : FaultCode) (s : State) : PortStep s (portFault code s) :=
  ⟨.single .fault, fun h => h.noSequence, and_or_self _ _, rfl⟩

/-- The STARTING sequence ends after a HALT (R215). -/
theorem portStep_giveUp {s : State} {q : Sequence} (hq : s.arc.inFlight = some q) (hk : q.kind = .starting) :
    PortStep s (portIdle s) := by
  refine portStep_move ?_ (fun ha => ha.noSequence) rfl rfl
  rw [view_inFlight hq, hk]
  exact .giveUp

/-- The state that a good header leaves, before the Journal Unit asks for a sequence (R200, R218). -/
def State.headerTaken (q : Sequence) (s : State) : State :=
  { s with
    arc := { s.arc with port := .running, base := q.base, sweep := 0, inFlight := none, busWait := 0 }
    jnl := { s.jnl with
      base := aligned (q.got.getD 1 0)
      slots := journalSlots (field (q.got.getD 0 0) 16 8)
      wakeCount := field (q.got.getD 2 0) 0 16
      head := field (q.got.getD 3 0) 0 16
      heldRelease := field (q.got.getD 3 0) 0 16
      publish := true
      holdOff := false
      holdOffDue := false } }

theorem enterRunning_eq (q : Sequence) (s : State) : enterRunning q s = requestJournal (s.headerTaken q) := rfl

/-- The STARTING sequence ends with a good header, whose bases are aligned (R159, R189, R218). -/
theorem portStep_enterRunning {s : State} {q : Sequence} (hq : s.arc.inFlight = some q) (hk : q.kind = .starting) :
    PortStep s (enterRunning q s) := by
  rw [enterRunning_eq]
  have htaken : PortStep s (s.headerTaken q) := by
    refine portStep_move ?_ (fun ha => ?_) rfl rfl
    · rw [view_inFlight hq, hk]
      exact .started
    · obtain ⟨hregs, -, -, hflight⟩ := ha
      exact ⟨hregs, (hflight q hq).1, aligned_mod _, by simp [State.headerTaken]⟩
  exact htaken.trans (portStep_requestJournal _)

theorem portStep_readDone {s : State} {q : Sequence} (data : Word) (hq : s.arc.inFlight = some q) :
    PortStep s (readDone data q s) := by
  simp only [readDone]
  split
  · exact portStep_putSequence hq rfl rfl (.inl rfl)
  · split
    · rename_i hk
      exact portStep_giveUp hq hk.1
    · exact portStep_putSequence hq rfl rfl (.inl rfl)

theorem takeRelease_base (r : Nat) (j : JournalUnit) : (j.takeRelease r).base = j.base := by
  unfold JournalUnit.takeRelease
  split <;> rfl

theorem portStep_readRelease {s : State} {q : Sequence} (r : Nat) (hq : s.arc.inFlight = some q) (hk : q.kind = .journal) :
    PortStep s (readRelease r q s) := by
  have hbase := takeRelease_base r s.jnl
  simp only [readRelease]
  generalize hj : (if (s.jnl.takeRelease r).room = 0 then _ else _ : JournalUnit) = j
  have h1 : PortStep s { s with jnl := j } := by
    refine portStep_rest rfl rfl rfl ?_
    rw [← hj]
    split
    · exact hbase
    · exact hbase
  split
  · exact h1.trans (portStep_endSequence hq (by simp [hk]))
  · exact h1.trans (portStep_putSequence hq rfl rfl (.inl rfl))

theorem portStep_planOutcome (edition : Byte) (got : List Word) (s : State) : PortStep s (planOutcome edition got s) := by
  unfold planOutcome
  split
  · exact PortStep.trans portStep_rest (portStep_handOver _ _)
  · exact PortStep.trans portStep_rest (portStep_handOver _ _)

theorem portStep_haltPort (s : State) : PortStep s (haltPort s) := by
  unfold haltPort
  split
  · exact portStep_rest
  · rename_i hp
    have hv : s.arc.view = ⟨.running, s.arc.queue, s.arc.inFlight.map (·.kind)⟩ := by simp [AreaController.view, hp]
    unfold enterHalting
    cases hq : s.arc.inFlight with
    | none =>
      refine portStep_move ?_ (fun ha => ha.noSequence) rfl rfl
      rw [hv, hq]
      exact .halt
    | some q =>
      refine portStep_move ?_ (fun ha => ha.congr rfl rfl rfl ha.inFlight) rfl rfl
      have := PortMove.halt (queue := s.arc.queue) (kind := some q.kind)
      rw [hv, hq]
      simpa [AreaController.view, hq] using this
  · exact .refl s
  · exact .refl s
  · exact .refl s

theorem requestedSequence_spec (r : PortRequest) (s : State) : (requestedSequence r s).kind.request? = some r
    ∧ (requestedSequence r s).base = s.arc.base ∧ (requestedSequence r s).planAddress = 0 := by
  unfold requestedSequence
  split
  · exact ⟨rfl, rfl, rfl⟩
  · split
    · exact ⟨rfl, rfl, rfl⟩
    · exact ⟨rfl, rfl, rfl⟩

/-! ### The commands (R161 to R219) -/

theorem portStep_sequenceStart {s t : State} (he : execSequenceStart s = .next t) : PortStep s t := by
  unfold execSequenceStart at he
  split at he
  · rename_i r rest hqueue
    refine whenDue_keeps he (.refl s) fun hd => ?_
    simp only [Bool.and_eq_true, beq_iff_eq, Option.isNone_iff_eq_none] at hd
    obtain ⟨⟨-, hrun⟩, hnone⟩ := hd
    obtain ⟨hserve, hbase, hplan⟩ := requestedSequence_spec r s
    refine portStep_move ?_ (fun ha => ha.congr rfl rfl rfl fun q hq => ?_) rfl rfl
    · rw [view_idle hnone, hrun, hqueue]
      exact hrun ▸ PortMove.serve hserve
    · obtain rfl := Option.some.inj hq
      rw [hbase, hplan]
      obtain ⟨-, harea, -⟩ := ha
      exact ⟨harea, rfl⟩
  · cases he
    exact .refl s

theorem portStep_busGrant {s t : State} (he : execBusGrant s = .next t) : PortStep s t := by
  unfold execBusGrant at he
  split at he
  · rename_i q hq
    have h1 : PortStep s (putSequence { q with granted := true } s) := portStep_putSequence hq rfl rfl (.inl rfl)
    exact whenDue_keeps he (.refl s) fun _ => h1.trans portStep_rest
  · cases he
    exact .refl s

theorem portStep_lineTakeUp {now : Bool} {s t : State} (he : execLineTakeUp now s = .next t) : PortStep s t := by
  unfold execLineTakeUp at he
  split at he
  · rename_i q hq
    split at he
    · rename_i n _
      have h1 := (lineStep_takeUp n q.got s.now s).portStep
      obtain ⟨rs, ⟨-, harc⟩, -⟩ := (lineStep_takeUp n q.got s.now s).records
      have hq' : (takeUp n q.got s.now s).arc.inFlight = some q := by
        rw [harc]
        split
        · exact hq
        · exact hq
      exact whenDue_keeps he (.refl s) fun _ => h1.trans (portStep_putSequence hq' rfl rfl (.inl rfl))
    all_goals
      cases he
      exact .refl s
  · cases he
    exact .refl s

theorem portStep_visitComplete {s t : State} (he : execVisitComplete s = .next t) : PortStep s t := by
  unfold execVisitComplete at he
  split at he
  · rename_i q hq
    split at he
    · rename_i n hk
      have hmoved : PortStep s { s with arc := { s.arc with sweep := nextSweep s.arc.sweep } } := portStep_rest
      exact whenDue_keeps he (.refl s) fun _ => hmoved.trans (portStep_endSequence (q := q) hq (by simp [hk]))
    all_goals
      cases he
      exact .refl s
  · cases he
    exact .refl s

theorem portStep_headerTakeUp {now : Bool} {s t : State} (he : execHeaderTakeUp now s = .next t) : PortStep s t := by
  unfold execHeaderTakeUp at he
  split at he
  · rename_i q hq
    have hover : PortStep s (headerHandOver q.got s) := portStep_rest rfl rfl rfl (takeRelease_base _ _)
    refine whenDue_keeps he (.refl s) fun _ => ?_
    split
    · exact hover.trans (portStep_putSequence (q := q) hq rfl rfl (.inl rfl))
    · exact hover.trans (portStep_putSequence (q := q) hq rfl rfl (.inr (aligned_mod _)))
  · cases he
    exact .refl s

theorem planOutcome_inFlight (edition : Byte) (got : List Word) (s : State) :
    (planOutcome edition got s).arc.inFlight = s.arc.inFlight := by
  unfold planOutcome
  split
  · exact requestJournal_arc_inFlight _
  · exact requestJournal_arc_inFlight _

theorem portStep_planLoadOutcome {now : Bool} {s t : State} (he : execPlanLoadOutcome now s = .next t) : PortStep s t := by
  unfold execPlanLoadOutcome at he
  split at he
  · rename_i q hq
    exact whenDue_keeps he (.refl s) fun _ => (portStep_planOutcome _ _ s).trans
      (portStep_putSequence ((planOutcome_inFlight _ _ s).trans hq) rfl rfl (.inl rfl))
  · cases he
    exact .refl s

theorem portStep_headerVisitComplete {s t : State} (he : execHeaderVisitComplete s = .next t) : PortStep s t := by
  unfold execHeaderVisitComplete at he
  split at he
  · rename_i q hq
    have hmoved : PortStep s { s with arc := { s.arc with sweep := 0 } } := portStep_rest
    refine whenDue_keeps he (.refl s) fun hd => hmoved.trans (portStep_endSequence (q := q) hq ?_)
    simp only [Bool.and_eq_true, beq_iff_eq] at hd
    obtain ⟨⟨-, hk⟩, -⟩ := hd
    simp [hk]
  · cases he
    exact .refl s

theorem portStep_headerCheck {s t : State} (he : execHeaderCheck s = .next t) : PortStep s t := by
  unfold execHeaderCheck at he
  split at he
  · rename_i q hq
    refine whenDue_keeps he (.refl s) fun hd => ?_
    simp only [Bool.and_eq_true, beq_iff_eq] at hd
    obtain ⟨⟨-, hk⟩, -⟩ := hd
    split
    · exact portStep_giveUp hq hk
    · split
      · exact portStep_enterRunning hq hk
      · exact portStep_portFault _ s
  · cases he
    exact .refl s

theorem portStep_releaseRead {s t : State} (he : execReleaseRead s = .next t) : PortStep s t := by
  unfold execReleaseRead at he
  split at he
  · rename_i q hq
    refine whenDue_keeps he (.refl s) fun hd => portStep_readRelease _ hq ?_
    simp only [Bool.and_eq_true, beq_iff_eq] at hd
    obtain ⟨⟨-, hk⟩, -⟩ := hd
    exact hk
  · cases he
    exact .refl s

theorem commit_base (count : Nat) (d : DevTime) (j : JournalUnit) : (j.commit count d).base = j.base := by
  simp only [JournalUnit.commit, JournalUnit.unstage]
  split <;> rfl

theorem portStep_journalCommit {s t : State} (he : execJournalCommit s = .next t) : PortStep s t := by
  unfold execJournalCommit at he
  split at he
  · rename_i q hq
    have hcommit : PortStep s { s with jnl := s.jnl.commit q.count s.now } := portStep_rest rfl rfl rfl (commit_base _ _ _)
    refine whenDue_keeps he (.refl s) fun hd =>
      (hcommit.trans (portStep_setAttention _ _)).trans (portStep_endSequence (q := q) hq ?_)
    simp only [Bool.and_eq_true, beq_iff_eq] at hd
    obtain ⟨⟨-, hk⟩, -⟩ := hd
    simp [hk]
  · cases he
    exact .refl s

theorem portStep_holdOffClear {s t : State} (he : execHoldOffClear s = .next t) : PortStep s t :=
  whenDue_keeps he (.refl s) fun _ => PortStep.trans portStep_rest (portStep_requestJournal _)

theorem portStep_busError {done : Bool} {s t : State} (he : execBusError done s = .next t) : PortStep s t := by
  unfold execBusError at he
  split at he
  · exact whenDue_keeps he (.refl s) fun _ => portStep_portFault _ s
  · cases he
    exact .refl s

theorem portStep_run {s t : State} (he : execRun s = .next t) : PortStep s t := by
  refine whenDue_keeps he (.refl s) fun hd => ?_
  simp only [Bool.and_eq_true, beq_iff_eq] at hd
  refine portStep_move ?_ (fun ha => ha.congr rfl rfl rfl fun q hq => ?_) rfl rfl
  · have hv : s.arc.view = ⟨.idle, s.arc.queue, s.arc.inFlight.map (·.kind)⟩ := by simp [AreaController.view, hd.2]
    rw [hv]
    exact .run
  · obtain rfl := Option.some.inj hq
    exact ⟨ha.1, rfl⟩

theorem portStep_clearFault {s t : State} (he : execClearFault s = .next t) : PortStep s t := by
  refine whenDue_keeps he (.refl s) fun hd => ?_
  simp only [Bool.and_eq_true, beq_iff_eq] at hd
  refine portStep_move ?_ (fun ha => ha.congr rfl rfl rfl ha.inFlight) rfl rfl
  have hv : s.arc.view = ⟨.faulted, s.arc.queue, s.arc.inFlight.map (·.kind)⟩ := by simp [AreaController.view, hd.2]
  rw [hv]
  exact .clearFault

theorem portStep_areaBaseWrite {data : Word} {s t : State} (he : execAreaBaseWrite data s = .next t) : PortStep s t :=
  whenDue_keeps he (.refl s) fun _ =>
    ⟨.refl, fun ⟨_, hb, hj, hq⟩ => ⟨aligned_mod data, hb, hj, hq⟩, BitVec.and_self, rfl⟩

theorem portStep_statusWrite {data : Word} {s t : State} (he : execStatusWrite data s = .next t) : PortStep s t :=
  whenDue_keeps he (.refl s) fun _ => ⟨.refl, fun h => h, BitVec.and_self, rfl⟩

theorem portStep_burstStart {k : SenderNo} {s t : State} (he : execBurstStart k s = .next t) : PortStep s t := by
  refine (senderFrame_burstStart he).portStep (rs := []) ?_
  unfold execBurstStart at he
  split at he
  · exact whenDue_keeps he (.refl s) fun _ => beginBurst_recorded k _ s
  · cases he
    exact .refl s

theorem portStep_startUpHoldEnd {s t : State} (he : execStartUpHoldEnd s = .next t) : PortStep s t := by
  exact whenDue_keeps he (.refl s) fun _ => PortStep.trans portStep_rest (portStep_tickBoundary _)

/-- Every command but a transfer's completion, a host's write of ATTENTION and the resets. -/
theorem exec_portStep {c : Instr} {s t : State} (hd : ∀ data, c ≠ .transferDone data)
    (ha : ∀ data, c ≠ .attentionWrite data) (hr : isReset c = false) (he : exec c s = .next t) : PortStep s t := by
  have hrefl := PortStep.refl s
  cases hl : lineOf c with
  | some n => exact (exec_lineStep hl he).portStep
  | none =>
    have hclk : ∀ c : Clock, PortStep s { s with clk := c } := fun _ => portStep_rest
    cases c
    case startUpHoldEnd => exact portStep_startUpHoldEnd he
    case frameStart =>
      exact whenDue_keeps (show execFrameStart s = .next t from he) hrefl fun _ => (hclk _).trans (portStep_startFrame _)
    case timeRollover => exact whenDue_keeps (show execTimeRollover s = .next t from he) hrefl fun _ => hclk _
    case xfsEdge cycle =>
      exact whenDue_keeps (show execXfsEdge cycle s = .next t from he) hrefl fun _ => (hclk _).trans (portStep_takeEdge _)
    case lockHandoverTimeout =>
      exact whenDue_keeps (show execLockHandoverTimeout s = .next t from he) hrefl fun _ =>
        (hclk _).trans (portStep_startFrame _)
    case qualifyTimeout =>
      exact whenDue_keeps (show execQualifyTimeout s = .next t from he) hrefl fun _ =>
        (hclk _).trans (portStep_changeClock _ _)
    case filledFrame => exact portStep_filledFrame he
    case dividerWindowClose =>
      simp only [exec, execDividerWindowClose] at he
      split at he
      · exact whenDue_keeps he hrefl fun _ => hclk _
      · cases he
        exact hrefl
    case scanFrameComplete frame =>
      exact whenDue_keeps (show execScanFrameComplete frame s = .next t from he) hrefl fun _ =>
        PortStep.trans (t := { s with scan := s.scan.finish s.now }) portStep_rest (portStep_sampleLines frame _ _ _)
    case burstStart k => exact portStep_burstStart he
    case burstExpiry k =>
      cases he
      exact portStep_takeBurstExpiry k s
    case gapExpiry k =>
      cases he
      exact portStep_takeGapExpiry k s
    case lineSlotReceived n v =>
      exact whenDue_keeps (show execLineSlotReceived n v s = .next t from he) hrefl fun _ => portStep_rest
    case sequenceStart => exact portStep_sequenceStart he
    case busGrant => exact portStep_busGrant he
    case lineTakeUp => exact portStep_lineTakeUp he
    case visitComplete => exact portStep_visitComplete he
    case headerTakeUp => exact portStep_headerTakeUp he
    case planLoadOutcome => exact portStep_planLoadOutcome he
    case headerVisitComplete => exact portStep_headerVisitComplete he
    case headerCheck => exact portStep_headerCheck he
    case releaseRead => exact portStep_releaseRead he
    case journalCommit => exact portStep_journalCommit he
    case holdOffClear => exact portStep_holdOffClear he
    case busError done => exact portStep_busError (done := done) he
    case busTimeout =>
      exact whenDue_keeps (show execBusTimeout s = .next t from he) hrefl fun _ => portStep_portFault _ s
    case run => exact portStep_run he
    case halt => exact whenDue_keeps (show execHalt s = .next t from he) hrefl fun _ => portStep_haltPort s
    case clearFault => exact portStep_clearFault he
    case areaBaseWrite => exact portStep_areaBaseWrite he
    case statusWrite => exact portStep_statusWrite he
    case ignoredCommand | resetNReturnsHigh | supplyInOperatingRange =>
      cases he
      exact portStep_rest
    case transferDone data => exact absurd rfl (hd data)
    case attentionWrite data => exact absurd rfl (ha data)
    case powerOn | pinReset | softReset => cases hr
    all_goals cases hl

/-! ### A completed transfer (R160, R178, R189) -/

/-- The state that a completed write leaves, but for memory. -/
theorem portStep_written {s : State} {q : Sequence} (hq : s.arc.inFlight = some q) :
    PortStep s { writeDone q { s with arc := { s.arc with busWait := 0 } } with mem := s.mem } := by
  have hwait : PortStep s { s with arc := { s.arc with busWait := 0 } } := portStep_rest
  exact hwait.trans (portStep_putSequence (q := q) hq rfl rfl (.inl rfl))

/-- A completed transfer keeps the laws of the port; a write of a granted sequence alone reaches memory, one word of it. -/
theorem transferDone_cases {data : Word} {s t : State} (he : exec (.transferDone data) s = .next t) : PortStep s t
    ∨ ∃ q, s.arc.inFlight = some q ∧ q.granted = true ∧ q.stage = .writing
        ∧ PortStep s { t with mem := s.mem } ∧ ∃ a w, t.mem = s.mem.writeWord a w := by
  change execTransferDone data s = .next t at he
  unfold execTransferDone at he
  split at he
  · rename_i q hq
    rcases whenDue_cases he with ⟨hd, rfl⟩ | rfl
    · split
      · rename_i hstage
        simp only [Sequence.transferring, Bool.and_eq_true] at hd
        obtain ⟨-, hg, -⟩ := hd
        exact .inr ⟨q, hq, hg, hstage, portStep_written hq, _, _, rfl⟩
      · have hwait : PortStep s { s with arc := { s.arc with busWait := 0 } } := portStep_rest
        exact .inl (hwait.trans (portStep_readDone data (q := q) hq))
    · exact .inl (.refl _)
  · cases he
    exact .inl (.refl s)

/-! ### Every command -/

theorem isReset_cases {c : Instr} {s t : State} (hr : isReset c = true) (he : exec c s = .next t) :
    t = s ∨ ∃ cause part, t = resetPart cause part s := by
  cases c
  case powerOn =>
    cases he
    exact .inr ⟨_, _, rfl⟩
  case pinReset low =>
    rcases whenDue_cases (show execPinReset low s = .next t from he) with ⟨-, rfl⟩ | rfl
    · exact .inr ⟨_, _, rfl⟩
    · exact .inl rfl
  case softReset =>
    rcases whenDue_cases (show execSoftReset s = .next t from he) with ⟨-, rfl⟩ | rfl
    · exact .inr ⟨_, _, rfl⟩
    · exact .inl rfl
  all_goals cases hr

theorem attentionWrite_cases {data : Word} {s t : State} (he : exec (.attentionWrite data) s = .next t) :
    t = { s with regs := { s.regs with attention := t.regs.attention } } := by
  rcases whenDue_cases (show execAttentionWrite data s = .next t from he) with ⟨-, rfl⟩ | rfl <;> rfl

/-- What every command does to the port and its bases. -/
theorem exec_portMoves {c : Instr} {s t : State} (he : exec c s = .next t) :
    PortMoves s.arc.view t.arc.view ∧ (AlignmentLaws s → AlignmentLaws t) := by
  by_cases hd : ∃ data, c = .transferDone data
  · obtain ⟨data, rfl⟩ := hd
    rcases transferDone_cases he with h | ⟨q, -, -, -, h, -⟩
    · exact ⟨h.moves, h.aligned⟩
    · exact ⟨h.moves, fun ha => h.aligned ha⟩
  by_cases ha : ∃ data, c = .attentionWrite data
  · obtain ⟨data, rfl⟩ := ha
    rw [attentionWrite_cases he]
    exact ⟨.refl, fun h => h⟩
  cases hr : isReset c
  · have h := exec_portStep (fun data hc => hd ⟨data, hc⟩) (fun data hc => ha ⟨data, hc⟩) hr he
    exact ⟨h.moves, h.aligned⟩
  · rcases isReset_cases hr he with rfl | ⟨cause, part, rfl⟩
    · exact ⟨.refl, id⟩
    · exact ⟨.single .reset, fun _ => by simp [AlignmentLaws, resetPart, State.reset]⟩

/-- Memory changes at a completed write alone, by one word (R160, R178, R189, R219). -/
theorem exec_mem {c : Instr} {s t : State} (he : exec c s = .next t) : t.mem = s.mem
    ∨ (∃ data, c = .transferDone data) ∧ (∃ q, s.arc.inFlight = some q ∧ q.granted = true ∧ q.stage = .writing)
      ∧ ∃ a w, t.mem = s.mem.writeWord a w := by
  by_cases hd : ∃ data, c = .transferDone data
  · obtain ⟨data, rfl⟩ := hd
    rcases transferDone_cases he with h | ⟨q, hq, hg, hw, -, hm⟩
    · exact .inl h.mem
    · exact .inr ⟨⟨data, rfl⟩, ⟨q, hq, hg, hw⟩, hm⟩
  by_cases ha : ∃ data, c = .attentionWrite data
  · obtain ⟨data, rfl⟩ := ha
    rw [attentionWrite_cases he]
    exact .inl rfl
  cases hr : isReset c
  · exact .inl (exec_portStep (fun data hc => hd ⟨data, hc⟩) (fun data hc => ha ⟨data, hc⟩) hr he).mem
  · rcases isReset_cases hr he with rfl | ⟨cause, part, rfl⟩
    · exact .inl rfl
    · exact .inl rfl

/-- A step of the machine is a command's, the queue aside. -/
theorem step_cases {s t : State} (h : step s = .next t) :
    t = s ∨ ∃ c rest, exec c { s with pending := rest } = .next t := by
  unfold step at h
  split at h
  · exact .inr ⟨_, _, h⟩
  · cases h
    exact .inl rfl

/-- Settles O54: every command moves the port as `PortMove` says, and each move keeps the laws. -/
theorem portLawsKept : Obligations.PortLawsKept := by
  intro s t h he
  rcases step_cases he with rfl | ⟨c, rest, he⟩
  · exact h
  · exact (portLaws_iff t).2 (PortMoves.lawful (exec_portMoves he).1 ((portLaws_iff s).1 h))

/-! ### The bus address (R159, R189) -/

theorem word_add_mod (a : Word) {n : Nat} (ha : a.toNat % 4 = 0) (hn : n % 4 = 0) :
    (a + BitVec.ofNat 32 n).toNat % 4 = 0 := by
  rw [BitVec.toNat_add, BitVec.toNat_ofNat]
  omega

theorem readBase_mod {q : Sequence} (hb : q.base.toNat % 4 = 0) (hp : q.planAddress.toNat % 4 = 0) :
    q.readBase.toNat % 4 = 0 := by
  unfold Sequence.readBase
  split
  · exact hp
  · split
    · exact hb
    · exact word_add_mod _ hb (by simp only [Config.headerBytes, Config.descriptorBytes]; omega)
    · exact word_add_mod _ hb (n := 8) rfl
    · exact word_add_mod _ hb (n := 12) rfl

theorem writeAddress_mod {j : JournalUnit} {q : Sequence} (hb : q.base.toNat % 4 = 0) (hj : j.base.toNat % 4 = 0) (i : Nat) :
    (writeAddress j q i).toNat % 4 = 0 := by
  unfold writeAddress
  split
  · exact hb
  · exact word_add_mod _ hb (by simp only [Config.headerBytes, Config.descriptorBytes]; omega)
  · exact word_add_mod _ hb (by omega)
  · split
    · exact word_add_mod _ hj (by omega)
    · exact word_add_mod _ hb (n := 28) rfl

theorem AlignmentLaws.busAddress {s : State} (h : AlignmentLaws s) {a : Word} (ha : busAddress s = some a) :
    a.toNat % 4 = 0 := by
  obtain ⟨-, -, hj, hflight⟩ := h
  unfold Machine.busAddress at ha
  split at ha
  · rename_i q hq
    obtain ⟨hb, hp⟩ := hflight q hq
    split at ha
    · obtain rfl := Option.some.inj ha
      split
      · exact writeAddress_mod hb hj _
      · exact word_add_mod _ (readBase_mod hb hp) (by omega)
    · cases ha
  · cases ha

/-- Settles O55: the bases stay aligned, whence every address does; and memory changes by whole writes alone. -/
theorem alignmentAndMemoryKept : Obligations.AlignmentAndMemoryKept := by
  intro s t he
  rcases step_cases he with rfl | ⟨c, rest, he⟩
  · exact ⟨fun h => ⟨h, fun a ha => h.busAddress ha⟩, id⟩
  · refine ⟨fun h => ?_, fun h => ?_⟩
    · have ht : AlignmentLaws t := (exec_portMoves he).2 h
      exact ⟨ht, fun a ha => ht.busAddress ha⟩
    · rcases exec_mem he with hm | ⟨-, -, a, w, hm⟩
      · rwa [hm]
      · rw [hm]
        exact Memory.wf_writeWord a w s.mem h

/-- Settles O3: a completed write alone reaches memory; of the ATTENTION bits, a write of ATTENTION clears those it holds a 1
for, the resets all, and every other command none. -/
theorem memoryAndAttention : Obligations.MemoryAndAttention := by
  refine ⟨fun c s t he hm => ?_, fun c s t he => ⟨fun ha hr => ?_, ?_⟩⟩
  · obtain ⟨hc, hq, -⟩ := (exec_mem he).resolve_left hm
    exact ⟨hc, hq⟩
  · by_cases hd : ∃ data, c = .transferDone data
    · obtain ⟨data, rfl⟩ := hd
      rcases transferDone_cases he with h | ⟨q, -, -, -, h, -⟩
      · exact h.attention
      · exact h.attention
    · exact (exec_portStep (fun data hc => hd ⟨data, hc⟩) ha hr he).attention
  · rintro data rfl
    have he : execAttentionWrite data s = .next t := he
    cases hw : s.working with
    | true =>
      obtain rfl := Host.Outcome.next.inj ((whenDue_true hw _ _).symm.trans he)
      refine ⟨?_, fun _ i hi => by simp [hi]⟩
      ext i hi
      simp +contextual
    | false =>
      obtain rfl := Host.Outcome.next.inj ((whenDue_false hw _ _).symm.trans he)
      exact ⟨BitVec.and_self, fun hp => absurd (working_iff.2 hp) (by simp [hw])⟩

end Sys2Proof.Machine
end

section
/-! SUPPORT. The bus and the sequences on it (R161 to R164, R178, R179, R189, R194, R195, R215, R218): requests served and granted
(O35), reads (O36), writes (O37), faults (O38), and the end of a visit (O41). -/

namespace Sys2Proof.Machine

/-! ### A sequence starts and is granted the bus (R161, R162, R218) -/

theorem sequenceStart_next {s : State} {r : PortRequest} {rest : List PortRequest} (hw : s.part.phase = .working)
    (hp : s.arc.port = .running) (hn : s.arc.inFlight = none) (hq : s.arc.queue = r :: rest) :
    exec .sequenceStart s = .next { s with arc := { s.arc with
      queue := rest, inFlight := some (requestedSequence r s), busWait := 0 } } := by
  change execSequenceStart s = _
  simp only [execSequenceStart, hq]
  exact whenDue_true (by simp [working_iff.2 hw, hp, hn]) _ _

theorem busGrant_next {s : State} {q : Sequence} (hw : s.part.phase = .working) (hq : s.arc.inFlight = some q)
    (hg : q.granted = false) : exec .busGrant s
      = .next { s with arc := { s.arc with inFlight := some { q with granted := true }, busWait := 0 } } := by
  change execBusGrant s = _
  simp only [execBusGrant, hq]
  exact whenDue_true (by simp [working_iff.2 hw, hg]) _ _

/-- A requested sequence begins with nothing granted, read or written. -/
theorem requestedSequence_begin (r : PortRequest) (s : State) : ∃ kind, requestedSequence r s = .begin kind s.arc.base := by
  cases r with
  | journal => exact ⟨_, rfl⟩
  | visit =>
    by_cases h : s.arc.sweep.val < 96
    · exact ⟨_, dif_pos h⟩
    · exact ⟨_, dif_neg h⟩

theorem requestedSequence_line {s : State} {i : LineNo} (h : s.arc.sweep.val = i.val) :
    (requestedSequence .visit s).kind = .lineVisit i := by
  have hlt : s.arc.sweep.val < 96 := h ▸ i.isLt
  have hi : (⟨s.arc.sweep.val, hlt⟩ : LineNo) = i := Fin.ext h
  simp [requestedSequence, hlt, hi, Sequence.begin]

theorem requestedSequence_header {s : State} (h : s.arc.sweep.val = 96) :
    (requestedSequence .visit s).kind = .headerVisit := by simp [requestedSequence, h, Sequence.begin]

/-- Settles O35: the request at the head of the queue names the sequence, which begins ungranted. -/
theorem sequencesStartAndAreGranted : Obligations.SequencesStartAndAreGranted := by
  refine fun s hw => ⟨fun r rest hp hn hq => ⟨requestedSequence r s, sequenceStart_next hw hp hn hq, ?_⟩,
    fun q hq hg => busGrant_next hw hq hg⟩
  obtain ⟨kind, hbegin⟩ := requestedSequence_begin r s
  refine ⟨by rw [hbegin]; rfl, by rw [hbegin]; rfl, by rw [hbegin]; rfl, by rw [hbegin]; rfl, by rw [hbegin]; rfl,
    by rw [hbegin]; rfl, ?_, ?_, ?_⟩
  · rintro rfl
    rfl
  · rintro i rfl h
    exact requestedSequence_line h
  · rintro rfl h
    exact requestedSequence_header h

/-! ### The transfer in progress (R159, R218) -/

theorem transferring_iff (q : Sequence) : q.transferring = true
    ↔ q.granted = true ∧ (q.stage = .reading ∨ q.stage = .planReading ∨ q.stage = .writing) := by
  simp [Sequence.transferring, or_assoc]

/-- The count of boundaries that the port has waited on the bus restarts (R218). -/
def State.busAnswered (s : State) : State := { s with arc := { s.arc with busWait := 0 } }

theorem transferDone_next (data : Word) {s : State} {q : Sequence} (hw : s.part.phase = .working)
    (hq : s.arc.inFlight = some q) (ht : q.transferring = true) :
    exec (.transferDone data) s = .next (if q.stage = .writing then writeDone q s.busAnswered else readDone data q s.busAnswered) := by
  change execTransferDone data s = _
  simp only [execTransferDone, hq]
  exact whenDue_true (by simp [working_iff.2 hw, ht]) _ _

theorem busAddress_of_transferring {s : State} {q : Sequence} (hq : s.arc.inFlight = some q) (ht : q.transferring = true) :
    busAddress s = some (if q.stage = .writing then writeAddress s.jnl q q.written
      else q.readBase + BitVec.ofNat 32 (4 * q.got.length)) := by simp [busAddress, hq, ht]

theorem busWriting_of_transferring {s : State} {q : Sequence} (hq : s.arc.inFlight = some q) (ht : q.transferring = true) :
    busWriting s = some (q.stage == .writing) := by simp [busWriting, hq, ht]

/-! ### Reads (R164, R179, R181, R195, R218) -/

/-- How many reads a stage makes, known once its first word is there: a plan load reads two words for each entry of its
count, which is held to 64, and two more (R181). -/
theorem readsWanted_append (q : Sequence) (data : Word) :
    { q with got := q.got ++ [data] }.readsWanted =
      if q.stage = .planReading then 2 * min (((q.got ++ [data]).headD 0).toNat % 256) 64 + 2 else match q.kind with
        | .starting => 4
        | .lineVisit _ => 10
        | .headerVisit => 5
        | .journal => 1 := by
  cases hstage : q.stage with
  | planReading =>
    cases hgot : q.got <;> simp [Sequence.readsWanted, planWords, entryCount, field_zero, Config.planPositions]
  | reading | readDone | planReadDone | writing | writeDone => rfl

theorem readBase_eq (q : Sequence) : q.readBase = if q.stage = .planReading then q.planAddress else match q.kind with
    | .starting => q.base
    | .lineVisit n => q.base + BitVec.ofNat 32 (48 + 64 * n.val)
    | .headerVisit => q.base + 8
    | .journal => q.base + 12 := by
  cases hstage : q.stage <;> simp only [Sequence.readBase, hstage] <;> rfl

theorem readDone_continues {data : Word} {q : Sequence} {s : State}
    (h : (q.got ++ [data]).length < { q with got := q.got ++ [data] }.readsWanted) :
    readDone data q s = putSequence { q with got := q.got ++ [data] } s := if_pos h

theorem readDone_ends {data : Word} {q : Sequence} {s : State}
    (h : { q with got := q.got ++ [data] }.readsWanted ≤ (q.got ++ [data]).length)
    (hh : ¬ (q.kind = .starting ∧ s.arc.haltTaken = true)) :
    readDone data q s = putSequence { q with
      got := q.got ++ [data], stage := if q.stage = .planReading then .planReadDone else .readDone } s :=
  (if_neg (Nat.not_lt.2 h)).trans (if_neg hh)

theorem readDone_halted {data : Word} {q : Sequence} {s : State}
    (h : { q with got := q.got ++ [data] }.readsWanted ≤ (q.got ++ [data]).length) (hk : q.kind = .starting)
    (hh : s.arc.haltTaken = true) : readDone data q s = portIdle s :=
  (if_neg (Nat.not_lt.2 h)).trans (if_pos ⟨hk, hh⟩)

/-- A read reaches the Area Controller alone, and of it neither queue, base, sweep nor plan edition. -/
theorem readDone_frame (data : Word) (q : Sequence) (s : State) :
    readDone data q s = { s with arc := (readDone data q s).arc } ∧ (readDone data q s).arc.busWait ≤ s.arc.busWait
      ∧ (readDone data q s).arc.queue = s.arc.queue ∧ (readDone data q s).arc.base = s.arc.base
      ∧ (readDone data q s).arc.sweep = s.arc.sweep ∧ (readDone data q s).arc.planTakenUp = s.arc.planTakenUp := by
  simp only [readDone]
  split
  · exact ⟨rfl, le_rfl, rfl, rfl, rfl, rfl⟩
  · split
    · exact ⟨rfl, Nat.zero_le _, rfl, rfl, rfl, rfl⟩
    · exact ⟨rfl, le_rfl, rfl, rfl, rfl, rfl⟩

/-- Settles O36: by the three ends of a read. -/
theorem readsOfASequence : Obligations.ReadsOfASequence := by
  intro data q s hw hq hg hstage start got wanted
  have ht : q.transferring = true := (transferring_iff q).2 ⟨hg, hstage.imp_right .inl⟩
  have hnw : q.stage ≠ .writing := by rcases hstage with h | h <;> simp [h]
  have hwanted : { q with got := got }.readsWanted = wanted := readsWanted_append q data
  have hstart : q.readBase = start := readBase_eq q
  have hnext := transferDone_next data hw hq ht
  rw [if_neg hnw] at hnext
  obtain ⟨hframe, hwait, hqueue, hbase, hsweep, hplan⟩ := readDone_frame data q s.busAnswered
  refine ⟨?_, ?_, _, hnext, hframe, Nat.le_zero.1 hwait, hqueue, hbase, hsweep, hplan, fun h => ?_, fun h hk => ?_,
    fun h hk hh => ?_⟩
  · rw [busAddress_of_transferring hq ht, if_neg hnw, hstart]
  · rw [busWriting_of_transferring hq ht, beq_false_of_ne hnw]
  · rw [readDone_continues (h.trans_eq hwanted.symm)]
    exact ⟨rfl, rfl⟩
  · rw [readDone_ends (s := s.busAnswered) (hwanted.trans_le h) hk]
    refine ⟨?_, rfl⟩
    rcases hstage with h | h <;> simp [h, got]
  · rw [readDone_halted (s := s.busAnswered) (hwanted.trans_le h) hk hh]
    exact ⟨rfl, rfl⟩

/-! ### Writes (R159, R164, R178, R179, R189, R195) -/

theorem Memory.readByte_writeWord_byte (a w : Word) (m : Memory) {i : Nat} (hi : i < 4) :
    (m.writeWord a w).readByte (a + BitVec.ofNat 32 i).toNat = some (byteOf w i) := by
  obtain ⟨h0, h1, h2, h3⟩ := Memory.readByte_writeWord a w m
  match i, hi with
  | 0, _ => simpa using h0
  | 1, _ => exact h1
  | 2, _ => exact h2
  | 3, _ => exact h3

theorem Memory.readByte_writeWord_outside (a w : Word) (m : Memory) {b : Nat}
    (h : ∀ i : Nat, i < 4 → b ≠ (a + BitVec.ofNat 32 i).toNat) : (m.writeWord a w).readByte b = m.readByte b :=
  Memory.readByte_writeWord_of_ne a w m b (by simpa using h 0 (by decide)) (h 1 (by decide)) (h 2 (by decide))
    (h 3 (by decide))

/-- Settles O37: the write at the address on the bus, and the bytes it does not reach. -/
theorem writesOfASequence : Obligations.WritesOfASequence := by
  intro data q s hw hq hg hstage words a
  have ht : q.transferring = true := (transferring_iff q).2 ⟨hg, .inr (.inr hstage)⟩
  have hwords : q.out.getD (composeWords q s) = words := by
    cases hout : q.out <;> simp [words, hout]
  have hnext := transferDone_next data hw hq ht
  rw [if_pos hstage] at hnext
  have hmem : (writeDone q s.busAnswered).mem = s.mem.writeWord a (words.getD q.written 0) := by
    rw [← hwords]
    rfl
  refine ⟨?_, ?_, fun n hk => ?_, fun hk => ?_, fun hk h => ?_, fun hk h => ?_, _, hnext, rfl, ?_, ?_, fun i hi => ?_,
    fun b hb => ?_⟩
  · rw [busAddress_of_transferring hq ht, if_pos hstage]
  · simp [busWriting_of_transferring hq ht, hstage]
  · simp [a, writeAddress, hk, Config.headerBytes, Config.descriptorBytes]
  · simp [a, writeAddress, hk]
  · simp [a, writeAddress, hk, Nat.not_lt.2 h]
  · simp [a, writeAddress, hk, h]
  · rw [← hwords]
    rfl
  · rw [hmem, Memory.readWord_writeWord]
  · rw [hmem, Memory.readByte_writeWord_byte a _ _ hi]
  · rw [hmem, Memory.readByte_writeWord_outside a _ _ hb]

/-! ### Bus faults (R161, R194, R216, R218) -/

theorem busError_next (done : Bool) {s : State} {q : Sequence} (hw : s.part.phase = .working)
    (hq : s.arc.inFlight = some q) (ht : q.transferring = true) :
    exec (.busError done) s = .next (portFault .busError s) := by
  change execBusError done s = _
  simp only [execBusError, hq]
  exact whenDue_true (by simp [working_iff.2 hw, ht]) _ _

theorem onBus_iff {a : AreaController} {q : Sequence} (hq : a.inFlight = some q) :
    a.onBus = true ↔ q.stage = .reading ∨ q.stage = .planReading ∨ q.stage = .writing := by
  simp [AreaController.onBus, hq, or_assoc]

/-- Settles O38: a fault of the port is portFault, whatever raised it. -/
theorem busFaults : Obligations.BusFaults := by
  intro q s hw hq hstage
  have hon : s.arc.onBus = true := (onBus_iff hq).2 hstage
  refine ⟨fun hg done => busError_next done hw hq ((transferring_iff q).2 ⟨hg, hstage⟩), fun h => ?_, fun h => ?_⟩
  · exact whenDue_true (by simp [working_iff.2 hw, hon, h]) _ _
  · exact whenDue_false (by simp [Nat.not_le.2 h]) _ _

/-! ### The end of a visit (R162, R164, R179, R194, R215) -/

theorem requestJournal_queue (s : State) :
    (requestJournal s).arc.queue = s.arc.queue ++ if journalWanted s = true then [.journal] else [] := by
  rcases requestJournal_cases s with ⟨hw, h⟩ | ⟨hw, h⟩
  · simp [h, hw]
  · simp [h, hw]

/-- requestJournal reaches the Area Controller alone. -/
theorem requestJournal_eq (s : State) : requestJournal s = { s with arc := (requestJournal s).arc } := by
  rcases requestJournal_cases s with ⟨-, h⟩ | ⟨-, h⟩
  · rw [h]; rfl
  · rw [h]

/-- The end of a sequence reaches the Area Controller alone. -/
theorem endSequence_eq (s : State) : endSequence s = { s with arc := (endSequence s).arc } := by
  by_cases h : s.arc.port = .halting
  · rw [endSequence_halting h]; rfl
  · rw [endSequence_goesOn h]; exact requestJournal_eq s.sequenceEnded

theorem endSequence_busWait (s : State) : (endSequence s).arc.busWait = 0 := by
  by_cases h : s.arc.port = .halting
  · rw [endSequence_halting h]; rfl
  · rw [endSequence_goesOn h, requestJournal_arc_busWait]; rfl

theorem endSequence_sweep (s : State) : (endSequence s).arc.sweep = s.arc.sweep := by
  obtain ⟨-, -, -, -, -, -, -, -, -, -, -, -, hsweep, -⟩ := endSequence_spec s
  exact hsweep

/-- A visit of s that ends in t, the sweep position after it given. -/
def VisitEnded (s : State) (sweep : Nat) (t : State) : Prop :=
  t.arc.inFlight = none ∧ t.arc.busWait = 0 ∧ t.arc.sweep.val = sweep
    ∧ (s.arc.port = .halting → t.arc.port = .idle ∧ t.arc.queue = s.arc.queue)
    ∧ (s.arc.port ≠ .halting → t.arc.port = s.arc.port
        ∧ t.arc.queue = s.arc.queue ++ (if s.arc.port = .running ∧ (s.jnl.staging ≠ [] ∨ s.jnl.publish = true)
            ∧ PortRequest.journal ∉ s.arc.queue ∧ s.jnl.holdOff = false then [.journal] else []))
    ∧ t = { s with arc := t.arc }

theorem visitEnded_endSequence (s : State) (k : Fin 97) :
    VisitEnded s k.val (endSequence { s with arc := { s.arc with sweep := k } }) := by
  refine ⟨?_, ?_, ?_, fun h => ?_, fun h => ?_, endSequence_eq _⟩
  · exact (endSequence_spec _).1
  · exact endSequence_busWait _
  · rw [endSequence_sweep]
  · rw [endSequence_halting (by exact h)]
    exact ⟨rfl, rfl⟩
  · rw [endSequence_goesOn (by exact h), requestJournal_queue]
    refine ⟨by simp [State.sequenceEnded], ?_⟩
    simp [journalWanted_iff, State.sequenceEnded, AreaController.journalling]

theorem nextSweep_val (i : Fin 97) : (nextSweep i).val = if i.val < 96 then i.val + 1 else 0 := by
  unfold nextSweep
  split
  · simp; omega
  · rfl

/-- Settles O41: both visits end their sequence, at the sweep position each leaves. -/
theorem visitsComplete : Obligations.VisitsComplete := by
  intro q s hw hq hstage
  refine ⟨fun n hk => ⟨visitDone s, ?_, ?_⟩, fun hk => ⟨endSequence { s with arc := { s.arc with sweep := 0 } }, ?_, ?_⟩⟩
  · change execVisitComplete s = _
    simp only [execVisitComplete, hq, hk]
    exact whenDue_true (by simp [working_iff.2 hw, hstage]) _ _
  · rw [← nextSweep_val]
    exact visitEnded_endSequence s _
  · change execHeaderVisitComplete s = _
    simp only [execHeaderVisitComplete, hq, hk]
    exact whenDue_true (by simp [working_iff.2 hw, hstage]) _ _
  · exact visitEnded_endSequence s 0

end Sys2Proof.Machine
end

section
/-! SUPPORT. The words the part writes, bit for bit (R178, R183 to R188): line reports, header words and journal records hold the
fields of their layouts. -/

namespace Sys2Proof.Machine

theorem Holds.of_pack {fs gs : List (Nat × Nat × Nat)} (h : FieldsFit fs) (he : fs = gs) : Holds (pack fs) gs := by
  subst he
  exact pack_holds fs h

/-! ### Each code fits its field -/

theorem byte_lt (b : Byte) : b.toNat < 256 := b.isLt

theorem editionCode_lt (e : Option Byte) : editionCode e < 256 := byte_lt _

theorem bit_le (b : Bool) : bit b ≤ 1 := by cases b <;> decide

theorem causes_lt (c : BitVec 9) : c.toNat < 512 := c.isLt

theorem MainState.code_lt (m : MainState) : m.code < 8 := by cases m <;> simp [MainState.code]

theorem BlockReason.code_le (r : BlockReason) : r.code ≤ 1 := by cases r <;> simp [BlockReason.code]

theorem MainState.reasonCode_le (m : MainState) : m.reasonCode ≤ 1 := by
  cases m with
  | blocked r => exact r.code_le
  | outOfService | onHook | seizing | collecting | through | suspended => exact Nat.zero_le 1

theorem LineClass.code_le (c : LineClass) : c.code ≤ 1 := by cases c <;> simp [LineClass.code]

theorem SubState.code_lt (x : SubState) : x.code < 4 := by cases x <;> simp [SubState.code]

theorem PathState.code_lt (x : PathState) : x.code < 4 := by cases x <;> simp [PathState.code]

theorem resumeCode_lt (t : Option ResumeTarget) : resumeCode t < 4 := by
  rcases t with _ | t
  · simp [resumeCode]
  · cases t <;> simp [resumeCode]

theorem Origin.code_lt (o : Origin) : o.code < 4 := by cases o <;> simp [Origin.code]

theorem ProfileOutcome.code_lt (o : ProfileOutcome) : o.code < 4 := by cases o <;> simp [ProfileOutcome.code]

theorem RequestOutcome.code_lt (o : RequestOutcome) : o.code < 8 := by cases o <;> simp [RequestOutcome.code]

theorem PlanOutcome.code_le (o : PlanOutcome) : o.code ≤ 1 := by cases o <;> simp [PlanOutcome.code]

theorem ClockState.code_lt (c : ClockState) : c.code < 4 := by cases c <;> simp [ClockState.code]

theorem NumberOutcome.code_lt (o : NumberOutcome) : o.code < 8 := by cases o <;> simp [NumberOutcome.code]

theorem SendReason.code_lt (r : SendReason) : r.code < 4 := by cases r <;> simp [SendReason.code]

theorem Disposition.code_lt (x : Disposition) : x.code < 8 := by cases x <;> simp [Disposition.code]

theorem RecordBody.kind_lt (b : RecordBody) : b.kind < 256 := by cases b <;> simp [RecordBody.kind]

/-- A number below a bound, or a default below it. -/
theorem getD_lt {n d b : Nat} (o : Option (Fin n)) (hn : n ≤ b) (hd : d < b) : (o.map (·.val)).getD d < b := by
  rcases o with _ | k
  · exact hd
  · exact k.isLt.trans_le hn

/-! ### Codes as the layouts give them -/

theorem bit_isSome (e : Option Byte) : bit e.isSome = if e = none then 0 else 1 := by cases e <;> simp [bit]

theorem MainState.reasonCode_eq (m : MainState) : m.reasonCode = if m = .blocked .fault then 1 else 0 := by
  cases m with
  | blocked r => cases r <;> decide
  | outOfService | onHook | seizing | collecting | through | suspended => rfl

theorem LineClass.code_eq (c : LineClass) : c.code = if c = .urgent then 1 else 0 := by cases c <;> rfl

theorem BlockReason.code_eq (r : BlockReason) : r.code = if r = .fault then 1 else 0 := by cases r <;> rfl

theorem PlanOutcome.code_eq (o : PlanOutcome) : o.code = if o = .rejectedCheck then 1 else 0 := by cases o <;> rfl

theorem resumeCode_eq (t : Option ResumeTarget) :
    resumeCode t = if t = some .through then 2 else if t = some .collecting then 1 else 0 := by
  rcases t with _ | t
  · rfl
  · cases t <;> rfl

/-! ### Line reports (R178, R186) -/

theorem reportWord0_holds (l : Line) (h : l.profileOutcome.field < 32) :
    Holds (pack [(editionCode l.profileEdition, 0, 8), (l.profileOutcome.code, 8, 2), (l.profileOutcome.field, 10, 5),
        (bit l.adoptedEdition.isSome, 15, 1), (editionCode l.adoptedEdition, 16, 8), (editionCode l.requestEdition, 24, 8)])
      [((l.profileEdition.getD 0).toNat, 0, 8), (l.profileOutcome.code, 8, 2), (l.profileOutcome.field, 10, 5),
        (if l.adoptedEdition = none then 0 else 1, 15, 1), ((l.adoptedEdition.getD 0).toNat, 16, 8),
        ((l.requestEdition.getD 0).toNat, 24, 8)] := by
  refine .of_pack ?_ (by rw [bit_isSome]; rfl)
  simp [FieldsFit, editionCode_lt, bit_le, ProfileOutcome.code_lt, h]

theorem reportWord1_holds (l : Line) (hp : l.pulses < 16) (hd : l.digits.length < 32) :
    Holds (pack [(l.requestOutcome.code, 0, 3), (l.main.code, 3, 3), (l.main.reasonCode, 6, 1), (l.cls.code, 7, 1),
        (l.sub.code, 8, 2), (l.path.code, 10, 2), (l.pulses, 12, 4), (l.digits.length, 16, 5),
        (resumeCode l.resumeTarget, 21, 2), ((l.attached.map (·.val)).getD 31, 24, 5)])
      [(l.requestOutcome.code, 0, 3), (l.main.code, 3, 3), (if l.main = .blocked .fault then 1 else 0, 6, 1),
        (if l.cls = .urgent then 1 else 0, 7, 1), (l.sub.code, 8, 2), (l.path.code, 10, 2), (l.pulses, 12, 4),
        (l.digits.length, 16, 5),
        (if l.resumeTarget = some .through then 2 else if l.resumeTarget = some .collecting then 1 else 0, 21, 2),
        ((l.attached.map (·.val)).getD 31, 24, 5)] := by
  have hat : (l.attached.map (·.val)).getD 31 < 32 := getD_lt _ (by decide) (by decide)
  refine .of_pack ?_ (by rw [MainState.reasonCode_eq, LineClass.code_eq, resumeCode_eq])
  simp [FieldsFit, RequestOutcome.code_lt, MainState.code_lt, MainState.reasonCode_le, LineClass.code_le, SubState.code_lt,
    PathState.code_lt, resumeCode_lt, hp, hd, hat]

theorem reportWord2_holds (l : Line) (he : l.estimate < 2 ^ 19) (hs : l.store.length < 64) :
    Holds (pack [(l.estimate, 0, 19), (l.store.length, 24, 6)]) [(l.estimate, 0, 19), (l.store.length, 24, 6)] :=
  pack_holds _ (by simpa [FieldsFit] using ⟨he, hs⟩)

theorem reportWord3_holds (l : Line) :
    Holds (pack [((l.store.head?.map (·.key.val)).getD 0, 0, 4), ((l.store.head?.map (·.origin.code)).getD 0, 4, 2),
        (bit l.store.head?.isSome, 6, 1), (l.sticky.toNat, 8, 9), (l.lastCauses.toNat, 20, 9)])
      [(match l.store with
          | x :: _ => x.key.val
          | [] => 0, 0, 4),
        (match l.store with
          | x :: _ => x.origin.code
          | [] => 0, 4, 2), (if l.store = [] then 0 else 1, 6, 1), (l.sticky.toNat, 8, 9), (l.lastCauses.toNat, 20, 9)] := by
  cases l.store with
  | nil => exact .of_pack (by simp [FieldsFit, causes_lt, bit]) rfl
  | cons x rest => exact .of_pack (by simp [FieldsFit, causes_lt, bit, Origin.code_lt]) rfl

/-! ### Header words (R183, R185) -/

theorem headerWord0_holds (s : State) (h : s.arc.loadIgnored < 128) :
    Holds (pack [(editionCode s.arc.planTakenUp, 0, 8), (s.arc.loadOutcome.code, 8, 1), (bit s.plan.edition.isSome, 15, 1),
        (s.arc.loadIgnored, 16, 7), (editionCode s.plan.edition, 24, 8)])
      [((s.arc.planTakenUp.getD 0).toNat, 0, 8), (if s.arc.loadOutcome = .rejectedCheck then 1 else 0, 8, 1),
        (if s.plan.edition = none then 0 else 1, 15, 1), (s.arc.loadIgnored, 16, 7), ((s.plan.edition.getD 0).toNat, 24, 8)] := by
  refine .of_pack ?_ (by rw [bit_isSome, PlanOutcome.code_eq]; rfl)
  simp [FieldsFit, editionCode_lt, bit_le, PlanOutcome.code_le, h]

theorem headerWord1_holds (s : State) :
    Holds (pack [(editionCode s.clk.settle.timeAdopted, 0, 8), (s.clk.state.code, 8, 2),
        (bit s.clk.settle.timeAdopted.isSome, 16, 1)])
      [((s.clk.settle.timeAdopted.getD 0).toNat, 0, 8), (s.clk.state.code, 8, 2),
        (if s.clk.settle.timeAdopted = none then 0 else 1, 16, 1)] := by
  refine .of_pack ?_ (by rw [bit_isSome]; rfl)
  simp [FieldsFit, editionCode_lt, bit_le, ClockState.code_lt]

/-! ### Journal records (R184, R188, R191) -/

theorem recordWord0_holds {sequence : Nat} (r : Record) (h : sequence < 65536) :
    Holds (pack [(sequence, 0, 16), (r.body.kind, 16, 8), ((r.line.map (·.val)).getD 255, 24, 8)])
      [(sequence, 0, 16), (r.body.kind, 16, 8), ((r.line.map (·.val)).getD 255, 24, 8)] := by
  have hn : (r.line.map (·.val)).getD 255 < 256 := getD_lt _ (by decide) (by decide)
  exact pack_holds _ (by simp [FieldsFit, RecordBody.kind_lt, h, hn])

theorem recordWord1_holds (r : Record) (h : r.time.tick < 2048) :
    Holds (pack [(r.time.seconds.toNat, 0, 16), (r.time.tick, 16, 11)])
      [(r.time.seconds.toNat % 65536, 0, 16), (r.time.tick, 16, 11)] := by
  have hlow : pack [(r.time.seconds.toNat, 0, 16), (r.time.tick, 16, 11)]
      = pack [(r.time.seconds.toNat % 65536, 0, 16), (r.time.tick, 16, 11)] := by simp [pack]
  rw [hlow]
  exact pack_holds _ (by simp [FieldsFit, h, Nat.mod_lt])

theorem digitWord_holds (key : Option Key) {pulses : Nat} (x : Disposition) (causes : BitVec 9) (h : pulses < 16) :
    Holds (pack [((key.map (·.val)).getD 15, 0, 4), (pulses, 4, 4), (x.code, 8, 3), (causes.toNat, 16, 9)])
      [((key.map (·.val)).getD 15, 0, 4), (pulses, 4, 4), (x.code, 8, 3), (causes.toNat, 16, 9)] := by
  have hk : (key.map (·.val)).getD 15 < 16 := getD_lt _ (by decide) (by decide)
  exact pack_holds _ (by simp [FieldsFit, Disposition.code_lt, causes_lt, h, hk])

theorem numberWord_holds (outcome : NumberOutcome) {length : Nat} {entry : Option Nat} (cls : LineClass) (hl : length < 32)
    (he : ∀ i, entry = some i → i < 64) :
    Holds (pack [(outcome.code, 0, 3), (length, 8, 5), (entry.getD 127, 16, 7), (cls.code, 24, 1)])
      [(outcome.code, 0, 3), (length, 8, 5), (entry.getD 127, 16, 7), (if cls = .urgent then 1 else 0, 24, 1)] := by
  have hi : entry.getD 127 < 128 := by
    cases entry with
    | none => decide
    | some i => exact (he i rfl).trans (by decide)
  refine .of_pack ?_ (by rw [LineClass.code_eq])
  simp [FieldsFit, NumberOutcome.code_lt, LineClass.code_le, hl, hi]

end Sys2Proof.Machine
end

section
/-! SUPPORT. Step 1 of a journal sequence, the hold-off, and the layout of records (R184, R188, R194 to R198): O50. -/

namespace Sys2Proof.Machine

/-! ### The words of a journal sequence (R195, R198) -/

theorem recordsWords_length (sequence : Nat) (rs : List Record) : (recordsWords sequence rs).length = 4 * rs.length := by
  induction rs generalizing sequence with
  | nil => rfl
  | cons r rest ih => simp [recordsWords, recordWords, ih]; omega

/-- Record i of a run stands in words 4i to 4i + 3, under its own number. -/
theorem recordsWords_record {rs : List Record} (sequence : Nat) {i : Nat} {r : Record} (hi : rs[i]? = some r)
    (rest : List Word) :
    ((recordsWords sequence rs ++ rest).drop (4 * i)).take 4 = recordWords ((sequence + i) % 65536) r := by
  induction rs generalizing sequence i with
  | nil => simp at hi
  | cons x xs ih =>
    cases i with
    | zero =>
      obtain rfl : x = r := by simpa using hi
      simp [recordsWords, recordWords]
    | succ i =>
      have := ih (sequence + 1) (i := i) (by simpa using hi)
      rw [show sequence + 1 + i = sequence + (i + 1) by omega] at this
      rw [← this]
      simp [recordsWords, recordWords, Nat.mul_succ, List.drop_append]

theorem pack_low16 (n : Nat) : pack [(n, 0, 16)] = BitVec.ofNat 32 (n % 65536) := by simp [pack]

/-- The head follows the records of a sequence. -/
theorem words_spec {j : JournalUnit} {count : Nat} (h : count ≤ j.staging.length) :
    (j.words count).length = 4 * count + 1
      ∧ (j.words count)[4 * count]? = some (BitVec.ofNat 32 ((j.head + count) % j.slots % 65536))
      ∧ ∀ i r, i < count → j.staging[i]? = some r →
        ((j.words count).drop (4 * i)).take 4 = recordWords ((j.sequence + i) % 65536) r := by
  have hlen : (recordsWords j.sequence (j.staging.take count)).length = 4 * count := by
    rw [recordsWords_length, List.length_take, min_eq_left h]
  refine ⟨by simp [JournalUnit.words, hlen], ?_, fun i r hi hr => ?_⟩
  · rw [JournalUnit.words, List.getElem?_append_right hlen.le, hlen, pack_low16]
    simp
  · exact recordsWords_record j.sequence (by rw [List.getElem?_take_of_lt hi, hr]) _

/-! ### The release index and the room (R194, R196, R197) -/

theorem takeRelease_eq (r : Nat) (j : JournalUnit) : j.takeRelease r = { j with heldRelease :=
    if r < j.slots ∧ (r + j.slots - j.heldRelease) % j.slots ≤ (j.head + j.slots - j.heldRelease) % j.slots then r
      else j.heldRelease } := by
  simp only [JournalUnit.takeRelease, JournalUnit.inSpan, decide_eq_true_eq]
  split <;> rfl

@[simp] theorem takeRelease_publish (r : Nat) (j : JournalUnit) : (j.takeRelease r).publish = j.publish := by rw [takeRelease_eq]

@[simp] theorem takeRelease_staging (r : Nat) (j : JournalUnit) : (j.takeRelease r).staging = j.staging := by rw [takeRelease_eq]

@[simp] theorem takeRelease_holdOff (r : Nat) (j : JournalUnit) : (j.takeRelease r).holdOff = j.holdOff := by rw [takeRelease_eq]

@[simp] theorem takeRelease_holdOffDue (r : Nat) (j : JournalUnit) : (j.takeRelease r).holdOffDue = j.holdOffDue := by
  rw [takeRelease_eq]

/-- The Journal Unit after the release read: the index taken up, and the hold-off set when there is no room. -/
def JournalUnit.released (r : Nat) (j : JournalUnit) : JournalUnit :=
  { j.takeRelease r with
    holdOff := if (j.takeRelease r).room = 0 then true else j.holdOff
    holdOffDue := if (j.takeRelease r).room = 0 then false else j.holdOffDue }

theorem readRelease_eq (r : Nat) (q : Sequence) (s : State) : readRelease r q s =
    if (s.jnl.takeRelease r).toWrite = 0 ∧ s.jnl.publish = false then endSequence { s with jnl := s.jnl.released r }
    else putSequence { q with
      stage := .writing, count := (s.jnl.takeRelease r).toWrite
      out := some ((s.jnl.takeRelease r).words (s.jnl.takeRelease r).toWrite), written := 0 }
      { s with jnl := s.jnl.released r } := by
  have hreleased : (if (s.jnl.takeRelease r).room = 0 then { s.jnl.takeRelease r with holdOff := true, holdOffDue := false }
      else s.jnl.takeRelease r) = s.jnl.released r := by
    by_cases hroom : (s.jnl.takeRelease r).room = 0
    · simp only [JournalUnit.released, hroom, if_true]
    · rw [JournalUnit.released, if_neg hroom, if_neg hroom, if_neg hroom, ← takeRelease_holdOff r, ← takeRelease_holdOffDue r]
  rw [readRelease, ← hreleased, ← takeRelease_publish r s.jnl]

theorem toWrite_le (j : JournalUnit) : j.toWrite ≤ j.staging.length := (min_le_left _ _).trans (min_le_right _ _)

/-- A sequence ends at once with nothing to write and no publish mark: for want of staged records, or of room, and then the
hold-off is set; neither wants another sequence. -/
theorem journalWanted_released {s : State} {r : Nat} (h0 : (s.jnl.takeRelease r).toWrite = 0) (hp : s.jnl.publish = false)
    {arc : AreaController} : journalWanted { s with arc := arc, jnl := s.jnl.released r } = false := by
  refine Bool.eq_false_iff.2 fun hw => ?_
  obtain ⟨-, hwant, -, -, hoff⟩ := (journalWanted_iff _).1 hw
  by_cases hroom : (s.jnl.takeRelease r).room = 0
  · simp [JournalUnit.released, hroom] at hoff
  · have hne : s.jnl.staging ≠ [] := by simpa [JournalUnit.released, hp] using hwant
    have := List.length_pos_of_ne_nil hne
    simp only [JournalUnit.toWrite, takeRelease_staging, Config.recordsPerSequence] at h0
    omega

theorem releaseRead_next {s : State} {q : Sequence} (hw : s.part.phase = .working) (hq : s.arc.inFlight = some q)
    (hk : q.kind = .journal) (hs : q.stage = .readDone) :
    exec .releaseRead s = .next (readRelease ((q.got.getD 0 0).toNat % 65536) q s) := by
  change execReleaseRead s = _
  simp only [execReleaseRead, hq, field_zero]
  exact whenDue_true (by simp [working_iff.2 hw, hk, hs]) _ _

/-- Step 1 of a journal sequence reaches the Area Controller and the Journal Unit alone. -/
theorem readRelease_frame (r : Nat) (q : Sequence) (s : State) :
    readRelease r q s = { s with arc := (readRelease r q s).arc, jnl := s.jnl.released r } := by
  rw [readRelease_eq]
  split
  · exact endSequence_eq _
  · rfl

theorem readRelease_ends {s : State} {r : Nat} (q : Sequence) (h0 : (s.jnl.takeRelease r).toWrite = 0)
    (hp : s.jnl.publish = false) : (readRelease r q s).arc.inFlight = none ∧ (readRelease r q s).arc.busWait = 0
      ∧ (readRelease r q s).arc.queue = s.arc.queue
      ∧ (readRelease r q s).arc.port = if s.arc.port = .halting then .idle else s.arc.port := by
  rw [readRelease_eq, if_pos ⟨h0, hp⟩]
  by_cases hh : s.arc.port = .halting
  · rw [endSequence_halting (by exact hh), if_pos hh]
    exact ⟨rfl, rfl, rfl, rfl⟩
  · rw [endSequence_goesOn (by exact hh), if_neg hh, requestJournal, State.sequenceEnded, journalWanted_released h0 hp]
    exact ⟨rfl, rfl, rfl, rfl⟩

theorem readRelease_writes {s : State} {r : Nat} (q : Sequence)
    (h : 0 < (s.jnl.takeRelease r).toWrite ∨ s.jnl.publish = true) :
    (readRelease r q s).arc = { s.arc with inFlight := some { q with
      stage := .writing, count := (s.jnl.takeRelease r).toWrite
      out := some ((s.jnl.takeRelease r).words (s.jnl.takeRelease r).toWrite), written := 0 } } := by
  rw [readRelease_eq, if_neg (by rintro ⟨h0, hp⟩; simp [h0, hp] at h)]
  rfl

/-! ### The hold-off (R194) -/

theorem holdOffClear_next {s : State} (hw : s.part.phase = .working) (hd : s.jnl.holdOffDue = true) :
    exec .holdOffClear s = .next (requestJournal { s with jnl := { s.jnl with holdOff := false, holdOffDue := false } }) :=
  whenDue_true (by simp [working_iff.2 hw, hd]) _ _

/-- requestJournal asks when a sequence is wanted. -/
theorem requestJournal_asks {s : State} (h : journalWanted s = true) :
    (requestJournal s).arc = { s.arc with queue := s.arc.queue ++ [.journal] } := by
  rw [requestJournal, if_pos h]
  rfl

theorem requestJournal_still {s : State} (h : ¬ journalWanted s = true) : requestJournal s = s := if_neg h

/-! ### The layouts (R184, R188) -/

/-- Settles O50: the release read and the hold-off as the Journal Unit takes them, and every record word packed of fields
that fit. -/
theorem releaseReadAndHoldOff : Obligations.ReleaseReadAndHoldOff := by
  refine ⟨fun q s hw hq hk hs => ?_, fun s hw hd => ?_,
    fun sequence r hseq htick => ?_, fun key pulses x causes estimate hp he => ?_,
    fun outcome length entry cls causes hl he => ?_, fun sender sent reason h => ?_, fun discarded h => ?_,
    fun trapped prior => ?_, fun edition outcome h => ?_, fun edition outcome ignored h => ?_, fun lost h => ?_,
    fun x => ?_, fun reason => ?_, fun state => ?_, rfl, rfl, fun body h2 h4 h5 => ?_, rfl, rfl, rfl⟩
  · intro j release held room count
    have hheld : s.jnl.takeRelease release = { s.jnl with heldRelease := held } := takeRelease_eq release s.jnl
    have hroom : (s.jnl.takeRelease release).room = room := by rw [hheld]; rfl
    have hcount : (s.jnl.takeRelease release).toWrite = count := by rw [hheld]; rfl
    have hreleased : s.jnl.released release = { j with
        heldRelease := held, holdOff := if room = 0 then true else j.holdOff
        holdOffDue := if room = 0 then false else j.holdOffDue } := by
      unfold JournalUnit.released
      rw [hroom, hheld]
    have hframe := readRelease_frame release q s
    have hjnl : (readRelease release q s).jnl = s.jnl.released release := by rw [hframe]
    refine ⟨_, releaseRead_next hw hq hk hs, ?_, hjnl.trans hreleased, fun h0 hp => readRelease_ends q (hcount.trans h0) hp,
      fun h => ?_⟩
    · rw [hjnl]
      exact hframe
    · have harc := readRelease_writes (r := release) q (by rwa [hcount])
      rw [hcount, hheld] at harc
      obtain ⟨hlen, hhead, hrecords⟩ := words_spec (j := { s.jnl with heldRelease := held })
        (hcount ▸ takeRelease_staging release s.jnl ▸ toWrite_le (s.jnl.takeRelease release) : count ≤ s.jnl.staging.length)
      exact ⟨_, by rw [harc], hlen, hhead, hrecords, by rw [harc]⟩
  · have hjnl := requestJournal_jnl { s with jnl := { s.jnl with holdOff := false, holdOffDue := false } }
    refine ⟨_, holdOffClear_next hw hd, ?_, hjnl, fun hp hwant hnot hj => requestJournal_asks ?_, fun h => ?_⟩
    · rw [hjnl]
      exact requestJournal_eq _
    · exact (journalWanted_iff _).2 ⟨hp, hwant, hnot, hj, rfl⟩
    · rw [requestJournal_still]
      intro hw
      obtain ⟨hp, hwant, hnot, hj, -⟩ := (journalWanted_iff _).1 hw
      rcases h with h | ⟨hs, hpub⟩ | h | h
      · exact h hp
      · exact hwant.elim (· hs) (by simp [hpub])
      · exact hnot h
      · exact Bool.false_ne_true (hj.symm.trans h)
  · refine ⟨_, _, rfl, ?_, recordWord1_holds r htick⟩
    have := recordWord0_holds r hseq
    cases hl : r.line <;> simpa [hl] using this
  · refine ⟨rfl, pack_holds _ (by simpa [FieldsFit] using he), ?_⟩
    have := digitWord_holds key x causes hp
    cases key <;> exact this
  · refine ⟨rfl, pack_holds _ (by simp [FieldsFit, causes_lt]), ?_⟩
    have := numberWord_holds outcome cls hl he
    cases entry <;> exact this
  · exact ⟨rfl, pack_holds _ (by simp [FieldsFit, SendReason.code_lt]), pack_holds _ (by simpa [FieldsFit] using h)⟩
  · exact ⟨rfl, pack_holds _ (by simpa [FieldsFit] using h)⟩
  · exact ⟨rfl, pack_holds _ (by simp [FieldsFit, causes_lt, MainState.code_lt])⟩
  · exact ⟨rfl, pack_holds _ (by simp [FieldsFit, byte_lt, ProfileOutcome.code_lt, h])⟩
  · exact ⟨rfl, .of_pack (by simp [FieldsFit, byte_lt, PlanOutcome.code_le, h]) (by rw [PlanOutcome.code_eq])⟩
  · exact ⟨rfl, pack_holds _ (by simpa [FieldsFit] using h)⟩
  · exact ⟨rfl, pack_holds _ (by simp [FieldsFit, Disposition.code_lt])⟩
  · exact ⟨rfl, rfl, .of_pack (by simp [FieldsFit, BlockReason.code_le]) (by rw [BlockReason.code_eq]),
      .of_pack (by simp [FieldsFit, BlockReason.code_le]) (by rw [BlockReason.code_eq])⟩
  · exact ⟨rfl, pack_holds _ (by simp [FieldsFit, ClockState.code_lt])⟩
  · cases body with
    | digit | number | sendDone => simp [RecordBody.kind] at h2 h4 h5
    | seize | flash | release | exception | block | unblock | profile | plan | clock | gap => rfl

end Sys2Proof.Machine
end

section
/-! SUPPORT. The header's two uses, the take-up of a header visit (R179 to R185, R196, R212) and the check of STARTING (R200, R215,
R218), and the register window (R213 to R217, R219): O42, O44, O52. -/

namespace Sys2Proof.Machine

/-! ### HEADER_CHECK (R200, R215, R218) -/

theorem headerCheck_next {s : State} {q : Sequence} (hw : s.part.phase = .working) (hq : s.arc.inFlight = some q)
    (hk : q.kind = .starting) (hs : q.stage = .readDone) : exec .headerCheck s
      = .next (if s.arc.haltTaken then portIdle s else if headerGood q.got then enterRunning q s else portFault .badHeader s) := by
  change execHeaderCheck s = _
  simp only [execHeaderCheck, hq]
  exact whenDue_true (by simp [working_iff.2 hw, hk, hs]) _ _

theorem headerGood_iff (got : List Word) : headerGood got = true
    ↔ (got.getD 0 0).toNat % 256 = 1 ∧ (got.getD 0 0).toNat / 256 % 256 = 96 ∧ (got.getD 0 0).toNat / 65536 % 256 ≤ 6
      ∧ (got.getD 3 0).toNat % 65536 < 64 * 2 ^ ((got.getD 0 0).toNat / 65536 % 256) := by
  simp [headerGood, field, journalSlots, Config.lineCount]

/-- The journal that a good header leaves is unpublished, with room: a journal sequence waits for it (R194, R200). -/
theorem enterRunning_asks (q : Sequence) (s : State) : PortRequest.journal ∈ (enterRunning q s).arc.queue := by
  rw [enterRunning_eq]
  by_cases h : PortRequest.journal ∈ s.arc.queue
  · rw [requestJournal_queue]
    exact List.mem_append_left _ h
  · rw [requestJournal_asks ((journalWanted_iff (s.headerTaken q)).2 ⟨rfl, .inr rfl, h, rfl, rfl⟩)]
    exact List.mem_append_right _ (List.mem_singleton_self _)

/-- Settles O44: by HALT, a good header and a bad one. -/
theorem headerChecks : Obligations.HeaderChecks := by
  intro q s hw hq hk hs _ format lines code release good
  have hgood : headerGood q.got = true ↔ good := headerGood_iff q.got
  have hnext := headerCheck_next hw hq hk hs
  cases hh : s.arc.haltTaken with
  | true =>
    rw [if_pos hh] at hnext
    exact ⟨_, hnext, rfl, rfl, fun _ => ⟨rfl, rfl, rfl, rfl⟩, by simp, by simp⟩
  | false =>
    rw [if_neg (by simp [hh])] at hnext
    by_cases hg : good
    · rw [if_pos (hgood.2 hg)] at hnext
      refine ⟨_, hnext, ?_, ?_, by simp, fun _ _ => ⟨?_, ?_, ?_, enterRunning_asks q s, ?_, ?_⟩, fun _ hn => absurd hg hn⟩
      all_goals rw [enterRunning_eq]
      · simp [State.headerTaken]
      · rw [requestJournal_jnl, requestJournal_regs]
        exact requestJournal_eq (s.headerTaken q)
      · simp [State.headerTaken]
      · simp [State.headerTaken]
      · simp [State.headerTaken]
      · simp [State.headerTaken]
      · simp [State.headerTaken, field, journalSlots, aligned, release, code]
    · rw [if_neg (fun h => hg (hgood.1 h))] at hnext
      exact ⟨_, hnext, rfl, rfl, by simp, fun _ h => absurd h hg, fun _ _ => ⟨rfl, rfl, rfl, rfl, rfl⟩⟩

/-! ### HEADER_TAKE_UP (R179 to R185, R196, R212) -/

theorem headerTakeUp_next (composeNow : Bool) {s : State} {q : Sequence} (hw : s.part.phase = .working)
    (hq : s.arc.inFlight = some q) (hk : q.kind = .headerVisit) (hs : q.stage = .readDone) :
    exec (.headerTakeUp composeNow) s = .next (if s.arc.planTakenUp = some (byteOf (q.got.getD 3 0) 0)
      then beginWriting composeNow q (headerHandOver q.got s)
      else putSequence { q with
        stage := .planReading, got := [], planAddress := aligned (q.got.getD 2 0), planEdition := byteOf (q.got.getD 3 0) 0 }
        (headerHandOver q.got s)) := by
  change execHeaderTakeUp composeNow s = _
  simp only [execHeaderTakeUp, hq]
  exact whenDue_true (by simp [working_iff.2 hw, hk, hs]) _ _

/-- A rollover takes no edition of a time setting up. -/
@[simp] theorem settle_timeTakenUp (c : Clock) : c.settle.timeTakenUp = c.timeTakenUp := by
  unfold Clock.settle Clock.roll
  split
  · cases c.pendingTime <;> rfl
  · rfl

/-- A time setting handed over waits for the next rollover. -/
theorem takeSetting_now (edition : Byte) (seconds : Word) (c : Clock) :
    (c.settle.takeSetting edition seconds).now = c.now := by
  unfold Clock.takeSetting
  split
  · exact settle_now c
  · rw [← settle_now c, now_of_not_due (settle_rolloverDue c)]
    exact now_of_not_due (settle_rolloverDue c)

/-- What a header take-up hands over, the port apart. -/
theorem headerHandOver_jnl (got : List Word) (s : State) : (headerHandOver got s).jnl =
    { s.jnl.takeRelease ((got.getD 1 0).toNat % 65536) with wakeCount := (got.getD 0 0).toNat % 65536 } := by
  rw [headerHandOver, field_zero, field_zero]
  rfl

/-- Settles O42: by the plan edition read, over the one hand-over of both cases. -/
theorem headerTakeUpHandsOver : Obligations.HeaderTakeUpHandsOver := by
  refine ⟨fun composeNow q s hw hq hk hs => ?_, fun s hi ht => ?_⟩
  · intro release edition timeEdition j inSpan
    have hnext := headerTakeUp_next composeNow hw hq hk hs
    have hjnl : (headerHandOver q.got s).jnl = { j with
        wakeCount := (q.got.getD 0 0).toNat % 65536, heldRelease := if inSpan then release else j.heldRelease } := by
      rw [headerHandOver_jnl, takeRelease_eq]
    have hclk : (headerHandOver q.got s).clk = if s.clk.timeTakenUp = some timeEdition then s.clk.settle
        else { s.clk.settle with timeTakenUp := some timeEdition, pendingTime := some ⟨q.got.getD 4 0, timeEdition⟩ } := by
      rw [← settle_timeTakenUp]
      rfl
    have hnow : (headerHandOver q.got s).now = s.now := takeSetting_now _ _ _
    by_cases he : s.arc.planTakenUp = some edition
    · rw [if_pos he] at hnext
      refine ⟨_, hnext, rfl, hnow, hjnl, hclk, rfl, rfl, rfl, fun hn => absurd he hn, fun _ => ?_⟩
      simp only [beginWriting, composeWords, hk]
      rfl
    · rw [if_neg he] at hnext
      exact ⟨_, hnext, rfl, hnow, hjnl, hclk, rfl, rfl, rfl, fun _ => rfl, fun h => absurd h he⟩
  · exact ⟨_, _, _, _, rfl, headerWord0_holds s hi, headerWord1_holds s, rfl, pack_holds _ (by simpa [FieldsFit] using ht)⟩

/-! ### CONTROL (R161, R194, R215) -/

theorem halt_next {s : State} (hw : s.part.phase = .working) : exec .halt s = .next (haltPort s) :=
  whenDue_true (working_iff.2 hw) _ _

theorem haltPort_running {s : State} (h : s.arc.port = .running) : haltPort s = enterHalting s := by simp only [haltPort, h]

/-! ### The register window (R213, R214, R216, R217) -/

theorem aligned_bit (a : Word) {i : Nat} (hi : i < 32) : (aligned a).getLsbD i = (a.getLsbD i && decide (2 ≤ i)) := by
  have hmask : ∀ i : Fin 32, (0xFFFFFFFC : Word).getLsbD i.val = decide (2 ≤ i.val) := by decide
  rw [aligned, BitVec.getLsbD_and, hmask ⟨i, hi⟩]

theorem registerField (address : Word) : field address 2 2 = address.toNat / 4 % 4 := rfl

theorem controlCommand_eq (data : Word) : controlCommand data =
    if data.toNat % 8 = 1 then .run else if data.toNat % 8 = 2 then .halt
      else if data.toNat % 8 = 3 then .clearFault else if data.toNat % 8 = 4 then .softReset
      else .ignoredCommand (data.setWidth 3) := by
  have hwidth : data.setWidth 3 = BitVec.ofNat 3 (data.toNat % 8) := BitVec.eq_of_toNat_eq (by simp)
  rw [controlCommand, field_zero, hwidth]
  split <;> simp_all

theorem statusWord_holds (s : State) : Holds (statusWord s)
    [(s.arc.port.code, 0, 3), (s.clk.state.code, 3, 2), (s.regs.resetCause.code, 5, 2),
      (if s.regs.powerOnFlag = true then 1 else 0, 7, 1), (s.regs.faultCode.code, 8, 2)] := by
  have hp : s.arc.port.code < 8 := by cases s.arc.port <;> decide
  have hr : s.regs.resetCause.code < 4 := by cases s.regs.resetCause <;> decide
  have hf : s.regs.faultCode.code < 4 := by cases s.regs.faultCode <;> decide
  exact .of_pack (by simp [FieldsFit, hp, hr, hf, bit_le, ClockState.code_lt]) rfl

/-- Settles O52: CONTROL and the register writes as due or not by phase and port state, then the coding and what a read answers
by the two address bits. -/
theorem registerWindowWrites : Obligations.RegisterWindowWrites := by
  refine ⟨fun s hw => ⟨fun hp => ?_, fun hp => ?_, fun hp => ?_, fun hp hn => ?_, fun hp hn => ?_, fun hp => ?_, fun hp => ?_,
    fun hp => ?_, fun f => rfl⟩, fun data s => ⟨fun hw hp => ?_, fun hw hp => ?_, fun hw => ?_, fun hw => ?_, fun hw => ?_⟩,
    fun address data => ?_, fun address s => ?_⟩
  · exact ⟨_, whenDue_true (by simp [working_iff.2 hw, hp]) _ _, rfl, rfl, rfl, rfl, rfl⟩
  · exact whenDue_false (by simp [hp]) _ _
  · rw [halt_next hw, haltPort, hp]
  · rw [halt_next hw, haltPort_running hp, enterHalting, if_neg (by simpa using hn)]
  · rw [halt_next hw, haltPort_running hp, enterHalting, if_pos (by simp [hn])]
    simp [portIdle]
  · rw [halt_next hw]
    rcases hp with hp | hp | hp <;> simp only [haltPort, hp]
  · exact whenDue_true (by simp [working_iff.2 hw, hp]) _ _
  · exact whenDue_false (by simp [hp]) _ _
  · exact ⟨_, whenDue_true (by simp [working_iff.2 hw, hp]) _ _, fun i hi => aligned_bit data hi⟩
  · exact whenDue_false (by simp [hp]) _ _
  · refine (whenDue_true (working_iff.2 hw) _ _).trans ?_
    cases data.getLsbD 7 <;> simp
  · exact ⟨_, whenDue_true (working_iff.2 hw) _ _, fun i hi => by simp [hi]⟩
  · have hoff : s.working = false := Bool.eq_false_iff.2 fun h => hw (working_iff.1 h)
    exact ⟨whenDue_false (by simp [hoff]) _ _, whenDue_false hoff _ _, whenDue_false hoff _ _,
      whenDue_false (by simp [hoff]) _ _, whenDue_false hoff _ _, whenDue_false (by simp [hoff]) _ _⟩
  · refine ⟨fun h => ?_, fun h => ?_, fun h => ?_, fun h => ?_⟩
    all_goals simp only [registerWrite, registerField, h]
    exact controlCommand_eq data
  · refine ⟨fun h => ?_, fun h => ?_, fun h => ?_, fun h => ?_⟩
    all_goals simp only [readRegister, registerField, h]
    · rfl
    · rfl
    · exact statusWord_holds s
    · exact pack_holds _ (by simpa [FieldsFit] using s.regs.attention.isLt)

end Sys2Proof.Machine
end

section
/-! SUPPORT. The check of a profile (R167 to R170, R186): its bytes, halves and times, its clamps and codes, and the seventeen checks
in their order, as one chain of conditions. -/

namespace Sys2Proof.Machine

/-! ### Bytes, halves and times (R167, R168, R186) -/

theorem byteAt_eq (ws : List Word) (i : Nat) : byteAt ws i = (ws.getD (i / 4) 0).toNat / 256 ^ (i % 4) % 256 := by
  rw [byteAt, field, pow_mul]
  rfl

theorem byteAt_lt (ws : List Word) (i : Nat) : byteAt ws i < 256 := Nat.mod_lt _ (by decide)

/-- The two halves of a word, byte by byte. -/
theorem wordHalves (w : Word) : field w 0 16 + field w 16 16
    = (field w 0 8 + 256 * field w 8 8) + (field w 16 8 + 256 * field w 24 8) := by
  have := w.isLt
  simp only [field]
  omega

/-- The sum of a profile's sixteen halves (R168). -/
theorem halfSum_eq {ws : List Word} (h : ws.length = 8) :
    halfSum ws = ((List.range 16).map fun i => byteAt ws (2 * i) + 256 * byteAt ws (2 * i + 1)).sum % 65536 := by
  match ws, h with
  | [w0, w1, w2, w3, w4, w5, w6, w7], _ =>
    simp only [halfSum, wordHalves]
    simp [List.range_succ, byteAt, Nat.add_assoc]

theorem timeCode_byteAt (ws : List Word) (i : Nat) : timeCode (byteAt ws i) =
    if byteAt ws i / 32 < 6 then byteAt ws i % 32 * 4 ^ (byteAt ws i / 32) else 31744 := by
  have hexp : byteAt ws i / 32 % 8 = byteAt ws i / 32 := by have := byteAt_lt ws i; omega
  rw [timeCode, hexp]
  by_cases h : 6 ≤ byteAt ws i / 32
  · rw [if_pos h, if_neg (by omega), Config.maxTime]
  · rw [if_neg h, if_pos (by omega)]

/-! ### Clamps (R169) -/

/-- A value held between two bounds. -/
def limited (lo hi v : Nat) : Nat := if v < lo then lo else if hi < v then hi else v

theorem clampDepth_eq (v : Nat) : clampDepth v = limited 1 8 v := by
  unfold clampDepth limited
  split_ifs <;> omega

theorem clampGain_eq (v : Nat) : clampGain v = limited 1 4 v := by
  unfold clampGain limited
  split_ifs <;> omega

/-- A multiplier is a field of six bits. -/
theorem clampMultiplier_eq (v : Nat) : clampMultiplier (v % 64) = limited 8 63 (v % 64) := by
  unfold clampMultiplier limited
  split_ifs <;> omega

theorem clampAmplitude_eq (v : Nat) : clampAmplitude v = limited 0 32767 v := by
  unfold clampAmplitude limited
  split_ifs <;> omega

/-! ### Codes that pass their checks (R170, R186) -/

theorem flashMappingOf_eq (b : Nat) (hb : b < 256) (h : ¬ (16 ≤ b / 8 ∧ b / 8 ≤ 30)) :
    flashMappingOf (b / 8) = if b / 8 = 31 then none else some (Fin.ofNat 16 (b / 8)) := by
  unfold flashMappingOf
  split_ifs
  · omega
  · rfl
  · rfl
  · omega

theorem marginalPolicyOf_eq {v : Nat} (hv : v < 4) (h : v ≠ 3) :
    marginalPolicyOf v = if v = 0 then .hold else if v = 1 then .asOpen else .asClosed := by
  obtain rfl | rfl | rfl : v = 0 ∨ v = 1 ∨ v = 2 := by omega
  all_goals rfl

theorem roundingOf_eq {v : Nat} (hv : v < 4) (h : v ≠ 3) :
    roundingOf v = if v = 0 then .nearest else if v = 1 then .down else .up := by
  obtain rfl | rfl | rfl : v = 0 ∨ v = 1 ∨ v = 2 := by omega
  all_goals rfl

theorem numberingOf_eq {v : Nat} (hv : v < 4) (h : v ≠ 3) :
    numberingOf v = if v = 0 then .direct else if v = 1 then .inverse else .offset := by
  obtain rfl | rfl | rfl : v = 0 ∨ v = 1 ∨ v = 2 := by omega
  all_goals rfl

theorem two_le_iff {v : Nat} (hv : v < 4) : 2 ≤ v ↔ v = 2 ∨ v = 3 := by omega

/-- A code of 0 or 1, told by its 1 or by its 0. -/
theorem ite_code {α : Type} {v : Nat} (hv : v < 4) (h : ¬ (v = 2 ∨ v = 3)) (x y : α) :
    (if v = 1 then x else y) = if v = 0 then y else x := by
  obtain rfl | rfl : v = 0 ∨ v = 1 := by omega
  all_goals rfl

/-! ### The checks in their order (R170) -/

/-- What the check answers once the check word is good: the field of the first check that fails, or the profile. -/
def verdict (p : Profile) (checks : List (Bool × Nat)) : ProfileCheck :=
  match firstFailure checks with
  | some f => .badField f
  | none => .good p

theorem verdict_nil (p : Profile) : verdict p [] = .good p := rfl

theorem verdict_cons (p : Profile) (c : Prop) [Decidable c] (f : Nat) (rest : List (Bool × Nat)) :
    verdict p ((decide c, f) :: rest) = if c then .badField f else verdict p rest := by
  by_cases h : c <;> simp [verdict, firstFailure, h]

theorem checkProfile_eq (ws : List Word) :
    checkProfile ws = if halfSum ws = 0 then verdict (readProfile ws) (profileChecks ws) else .badCheck := rfl

/-- Two chains of checks agree when their conditions do and, past a check that passes, what follows does. -/
theorem ite_step {α : Type} {c c' : Prop} [Decidable c] [Decidable c'] {x a a' : α} (hc : c ↔ c') (h : ¬ c' → a = a') :
    (if c then x else a) = if c' then x else a' := by
  by_cases h' : c'
  · rw [if_pos (hc.2 h'), if_pos h']
  · rw [if_neg (h' ∘ hc.1), if_neg h', h h']

end Sys2Proof.Machine
end

section
/-! SUPPORT. The take-up of a line (R164 to R178, R186): the profile step (O39), then the request it codes (O40). -/

namespace Sys2Proof.Machine

/-! ### LINE_TAKE_UP is the take-up, then the writing step (R164) -/

theorem lineTakeUp_next (composeNow : Bool) {n : LineNo} {q : Sequence} {s : State} (hw : s.part.phase = .working)
    (hq : s.arc.inFlight = some q) (hk : q.kind = .lineVisit n) (hs : q.stage = .readDone) :
    exec (.lineTakeUp composeNow) s
      = .next (beginWriting composeNow { q with visitTime := s.now } (takeUp n q.got s.now s)) := by
  change execLineTakeUp composeNow s = _
  simp only [execLineTakeUp, hq, hk]
  exact whenDue_true (by simp [working_iff.2 hw, hs]) _ _

/-- A line visit that begins to write has its report composed from the line as it then is. -/
theorem beginWriting_report (composeNow : Bool) {n : LineNo} {q : Sequence} (hk : q.kind = .lineVisit n) (s : State) :
    beginWriting composeNow q s = putSequence { q with
      stage := .writing, written := 0, out := if composeNow then some (reportWords (s.line n) q.visitTime) else none } s := by
  simp only [beginWriting, composeWords, hk]

/-! ### The profile step (R166, R171 to R173) -/

theorem profileStep_known {n : LineNo} {edition : Byte} {s : State} (h : (s.line n).profileEdition = some edition)
    (ws : List Word) (d : DevTime) : profileStep n edition ws d s = s := if_pos h

theorem profileStep_new {n : LineNo} {edition : Byte} {s : State} (h : (s.line n).profileEdition ≠ some edition)
    (ws : List Word) (d : DevTime) : profileStep n edition ws d s
      = handOver (lineRecord n d (.profile edition ((s.line n).profileTaken edition ws).profileOutcome))
          (s.setLine n ((s.line n).profileTaken edition ws)) := if_neg h

/-- The profile step reaches the line, the Journal Unit and the port alone. -/
theorem profileStep_frame (n : LineNo) (edition : Byte) (ws : List Word) (d : DevTime) (s : State) :
    OtherLinesSame n s (profileStep n edition ws d s) ∧ (profileStep n edition ws d s).pool = s.pool
      ∧ OtherBlocksSame s (profileStep n edition ws d s) := by
  by_cases h : (s.line n).profileEdition = some edition
  · rw [profileStep_known h]
    exact ⟨fun _ _ => rfl, rfl, rfl, rfl, rfl, rfl, rfl, rfl, rfl, rfl⟩
  · rw [profileStep_new h]
    exact ⟨fun m hm => by simp [hm], by simp, by simp [OtherBlocksSame]⟩

theorem profileStep_now (n : LineNo) (edition : Byte) (ws : List Word) (d : DevTime) (s : State) :
    (profileStep n edition ws d s).now = s.now := by
  obtain ⟨-, -, -, -, -, -, -, -, hclk, -⟩ := profileStep_frame n edition ws d s
  exact congrArg Clock.now hclk

theorem profileStep_phase (n : LineNo) (edition : Byte) (ws : List Word) (d : DevTime) (s : State) :
    (profileStep n edition ws d s).part.phase = s.part.phase := by
  obtain ⟨-, -, -, hpart, -⟩ := profileStep_frame n edition ws d s
  rw [hpart]

theorem adopt_requestEdition (l : Line) (p : Profile) : (l.adopt p).requestEdition = l.requestEdition := by
  unfold Line.adopt
  simp only
  split <;> rfl

theorem profileTaken_requestEdition (edition : Byte) (ws : List Word) (l : Line) :
    (l.profileTaken edition ws).requestEdition = l.requestEdition := by
  unfold Line.profileTaken
  split
  · rfl
  · rfl
  · simp only [Line.takeProfile]
    split
    · rfl
    · exact adopt_requestEdition _ _

theorem profileStep_requestEdition (n : LineNo) (edition : Byte) (ws : List Word) (d : DevTime) (s : State) :
    ((profileStep n edition ws d s).line n).requestEdition = (s.line n).requestEdition := by
  by_cases h : (s.line n).profileEdition = some edition
  · rw [profileStep_known h]
  · rw [profileStep_new h]
    simp [profileTaken_requestEdition]

/-! ### The request step (R174, R175) -/

/-- Under the request edition acknowledged a take-up is its profile step. -/
theorem takeUp_acknowledged {n : LineNo} {got : List Word} {s : State}
    (h : (s.line n).requestEdition = some (byteOf (got.getD 0 0) 1)) (d : DevTime) :
    takeUp n got d s = profileStep n (byteOf (got.getD 0 0) 0) (got.drop 2) d s :=
  if_pos ((profileStep_requestEdition _ _ _ _ _).trans h)

/-- The row of the request that a descriptor's first two words code (R175, R186). -/
def requestRow (n : LineNo) (w keys : Word) : Instr :=
  if (byteOf w 2).toNat = 0 then .requestNone n (byteOf w 1)
  else if (byteOf w 2).toNat = 1 then .inject n (byteOf w 1) (byteOf w 3) keys
  else if (byteOf w 2).toNat = 2 then .flush n (byteOf w 1)
  else if (byteOf w 2).toNat = 3 then .endNumber n (byteOf w 1)
  else if (byteOf w 2).toNat = 4 then .resume n (byteOf w 1)
  else if (byteOf w 2).toNat = 5 then .clearFlags n (byteOf w 1)
  else if (byteOf w 2).toNat = 6 then .block n (byteOf w 1)
  else if (byteOf w 2).toNat = 7 then .unblock n (byteOf w 1)
  else if (byteOf w 2).toNat = 8 then .resetSpeed n (byteOf w 1)
  else .unknownRequest n (byteOf w 1) (byteOf w 2)

/-- A row of the table runs the request step of a take-up that codes it. -/
theorem exec_requestRow {s : State} (hw : s.part.phase = .working) (n : LineNo) (w keys : Word) :
    exec (requestRow n w keys) s = .next (requestStep n w keys s.now s) := by
  unfold requestRow requestStep doRequest
  split_ifs
  all_goals exact whenDue_true (working_iff.2 hw) _ _

/-- Settles O40: the row runs on what the profile step leaves. -/
theorem lineTakeUpRequest : Obligations.LineTakeUpRequest := by
  intro composeNow n q s hw hq hk hs w keys edition code row
  have hrow := exec_requestRow ((profileStep_phase n (byteOf w 0) (q.got.drop 2) s.now s).trans hw) n w keys
  rw [profileStep_now] at hrow
  exact ⟨_, _, lineTakeUp_next composeNow hw hq hk hs, hrow,
    beginWriting_report composeNow (q := { q with visitTime := s.now }) hk _, (lineStep_takeUp n q.got s.now s).portStep.mem⟩

/-! ### What the profile step leaves of the line (R166 to R173) -/

theorem takeProfile_eq (edition : Byte) (p : Profile) (l : Line) : l.takeProfile edition p =
    if l.main = .seizing ∨ l.main = .collecting ∨ l.main = .through ∨ l.main = .suspended
      then { l with profileEdition := some edition, pendingProfile := some p, profileOutcome := .deferred }
      else { l with profileEdition := some edition }.adopt p :=
  if_congr ((or_congr_left (inCall_iff l.main)).trans or_comm) rfl rfl

/-- The line that a profile step leaves, whichever of its cases applies. -/
theorem profileStep_line (n : LineNo) (edition : Byte) (ws : List Word) (d : DevTime) (s : State) :
    (profileStep n edition ws d s).line n
      = if (s.line n).profileEdition = some edition then s.line n else (s.line n).profileTaken edition ws := by
  by_cases h : (s.line n).profileEdition = some edition
  · rw [profileStep_known h, if_pos h]
  · rw [profileStep_new h, if_neg h, line_handOver, line_setLine_self]

theorem profileStep_jnl (n : LineNo) (edition : Byte) (ws : List Word) (d : DevTime) (s : State) :
    (profileStep n edition ws d s).jnl = if (s.line n).profileEdition = some edition then s.jnl
      else s.jnl.stage ⟨some n, d, .profile edition ((profileStep n edition ws d s).line n).profileOutcome⟩ := by
  by_cases h : (s.line n).profileEdition = some edition
  · rw [profileStep_known h, if_pos h]
  · rw [profileStep_line, if_neg h, if_neg h, profileStep_new h, handOver_jnl]
    rfl

/-! ### The check of a profile as one chain (R168 to R170) -/

/-- Settles O39: the profile step, the chain of checks over the profile's bytes, and the report packed of fields that fit. -/
theorem lineTakeUpProfile : Obligations.LineTakeUpProfile := by
  refine ⟨fun composeNow n q s hw hq hk hs hreq => ?_, ⟨rfl, rfl, rfl, rfl, rfl, rfl⟩, fun ws hlen => ?_,
    fun l visit hf hp hd he hs ht => ?_⟩
  · intro l edition seen refused after
    have hnext := lineTakeUp_next composeNow hw hq hk hs
    rw [takeUp_acknowledged hreq, beginWriting_report composeNow (q := { q with visitTime := s.now }) hk] at hnext
    have hline : (profileStep n edition (q.got.drop 2) s.now s).line n = after := by
      rw [profileStep_line]
      simp only [Line.profileTaken, takeProfile_eq]
      rfl
    have hjnl := profileStep_jnl n edition (q.got.drop 2) s.now s
    rw [hline] at hjnl hnext
    obtain ⟨hlines, hpool, hblocks⟩ := profileStep_frame n edition (q.got.drop 2) s.now s
    exact ⟨_, hnext, hline, hlines, hpool, hblocks, hjnl, rfl⟩
  · intro b half ticks limit mapping policy rounding numbering sending after action bMin bMax fMax rel
    have hb : byteAt ws = b := funext (byteAt_eq ws)
    have hlt : ∀ i, b i < 256 := hb ▸ byteAt_lt ws
    have ht : ∀ i, timeCode (b i) = ticks i := by
      rw [← hb]
      intro i
      rw [timeCode_byteAt, hb]
    rw [checkProfile_eq, halfSum_eq hlen, profileChecks]
    simp only [verdict_cons, verdict_nil, readProfile, hb, ht]
    have hmod : ∀ k, k % 4 < 4 := fun k => Nat.mod_lt k (by decide)
    have htop : ∀ i, b i / 64 < 4 := fun i => by have := hlt i; omega
    refine (ite_not _ _ _).symm.trans (ite_step Iff.rfl fun _ => ?_)
    refine ite_step Iff.rfl fun hmapping => ite_step Iff.rfl fun hpolicy => ite_step Iff.rfl fun hrounding =>
      ite_step Iff.rfl fun hnumbering => ite_step (two_le_iff (hmod _)) fun hsending =>
      ite_step (two_le_iff (hmod _)) fun hafter => ite_step (two_le_iff (htop 2)) fun haction => ?_
    iterate 10 refine ite_step Iff.rfl fun _ => ?_
    rw [flashMappingOf_eq (b 0) (hlt 0) hmapping, marginalPolicyOf_eq (hmod _) hpolicy, roundingOf_eq (htop 1) hrounding,
      numberingOf_eq (hmod _) hnumbering, ite_code (hmod _) hsending, ite_code (hmod _) hafter, ite_code (htop 2) haction,
      clampDepth_eq, clampGain_eq, clampMultiplier_eq, clampAmplitude_eq, clampAmplitude_eq, halfAt, halfAt, hb]
    rfl
  · refine ⟨_, _, _, _, _, _, rfl, reportWord0_holds l hf, ?_, reportWord2_holds l he hs, reportWord3_holds l, rfl,
      pack_holds _ (by simpa [FieldsFit] using ht)⟩
    have := reportWord1_holds l hp hd
    cases ha : l.attached with
    | none => rwa [ha] at this
    | some k => rwa [ha] at this

end Sys2Proof.Machine
end

section
/-! SUPPORT. The commit of a journal sequence: what leaves staging, the bits it sets, and how the port goes on (R192 to R195,
R201, R202, R215): O51. -/

namespace Sys2Proof.Machine

/-! ### The Journal Unit at a commit (R193, R195) -/

/-- A GAP record is due: places are freed in a full FIFO with losses counted (R193). -/
def JournalUnit.gapDue (count : Nat) (j : JournalUnit) : Bool :=
  decide (0 < count ∧ Config.stagingRoom ≤ j.staging.length ∧ 0 < j.gap)

theorem unstage_eq (count : Nat) (d : DevTime) (j : JournalUnit) : j.unstage count d = { j with
    staging := j.staging.drop count ++ if j.gapDue count then [partRecord d (.gap j.gap)] else []
    gap := if j.gapDue count then 0 else j.gap } := by
  simp only [JournalUnit.unstage, JournalUnit.gapDue, decide_eq_true_eq]
  by_cases h : 0 < count ∧ Config.stagingRoom ≤ j.staging.length ∧ 0 < j.gap
  · simp only [if_pos h]
  · simp only [if_neg h, List.append_nil]

theorem commit_eq (count : Nat) (d : DevTime) (j : JournalUnit) : j.commit count d = { j with
    staging := j.staging.drop count ++ if j.gapDue count then [partRecord d (.gap j.gap)] else []
    gap := if j.gapDue count then 0 else j.gap
    head := (j.head + count) % j.slots
    sequence := (j.sequence + count) % 65536
    publish := false } := by
  rw [JournalUnit.commit, unstage_eq]

/-! ### The bits a commit sets (R201, R202) -/

theorem wakes_commit (count : Nat) (d : DevTime) (j : JournalUnit) : (j.commit count d).wakes = true ↔
    0 < min j.wakeCount (j.slots - 1)
      ∧ min j.wakeCount (j.slots - 1) ≤ ((j.commit count d).head + j.slots - j.heldRelease) % j.slots := by
  rw [commit_eq]
  exact decide_eq_true_iff

theorem urgent_iff (r : Record) :
    r.urgent = true ↔ r.body = .block .fault ∨ ∃ x m, r.body = .exception x m := by
  obtain ⟨line, time, body⟩ := r
  cases body with
  | block reason => cases reason <;> simp [Record.urgent]
  | exception trapped prior => simp [Record.urgent]
  | seize | digit | flash | number | sendDone | release | unblock | profile | plan | clock | gap => simp [Record.urgent]

theorem any_urgent_iff (rs : List Record) :
    rs.any Record.urgent = true ↔ ∃ r ∈ rs, r.body = .block .fault ∨ ∃ x m, r.body = .exception x m := by
  simp only [List.any_eq_true, urgent_iff]

/-- A commit sets JOURNAL and URGENT by their causes, and no other bit. -/
theorem commitBits_getLsbD (count : Nat) (before after : JournalUnit) :
    (commitBits count before after).getLsbD 0 = after.wakes
      ∧ (commitBits count before after).getLsbD 1 = (before.staging.take count).any Record.urgent
      ∧ (commitBits count before after).getLsbD 2 = false ∧ (commitBits count before after).getLsbD 3 = false := by
  unfold commitBits
  generalize after.wakes = wakes, (before.staging.take count).any Record.urgent = urgent
  revert wakes urgent
  decide

/-! ### The sequence ends (R194, R215) -/

/-- The end of a sequence reaches the port, the halt taken, the queue and the sequence in flight with its bus wait. -/
theorem endSequence_arc (s : State) : (endSequence s).arc = { s.arc with
    port := (endSequence s).arc.port, haltTaken := (endSequence s).arc.haltTaken, queue := (endSequence s).arc.queue
    inFlight := none, busWait := 0 } := by
  by_cases h : s.arc.port = .halting
  · rw [endSequence_halting h]; rfl
  · rw [endSequence_goesOn h]
    rcases requestJournal_cases s.sequenceEnded with ⟨-, h⟩ | ⟨-, h⟩ <;> rw [h] <;> rfl

theorem endSequence_haltTaken {s : State} (h : s.arc.port ≠ .halting) : (endSequence s).arc.haltTaken = s.arc.haltTaken := by
  rw [endSequence_goesOn h, requestJournal_arc_haltTaken]
  rfl

/-! ### JOURNAL_COMMIT (R195) -/

/-- The state at a commit of `count` records, its sequence still in flight. -/
def State.committed (count : Nat) (s : State) : State :=
  setAttention (commitBits count s.jnl (s.jnl.commit count s.now)) { s with jnl := s.jnl.commit count s.now }

theorem journalCommit_next {s : State} {q : Sequence} (hw : s.part.phase = .working) (hq : s.arc.inFlight = some q)
    (hk : q.kind = .journal) (hs : q.stage = .writeDone) :
    exec .journalCommit s = .next (endSequence (s.committed q.count)) := by
  change execJournalCommit s = _
  simp only [execJournalCommit, hq]
  exact whenDue_true (by simp [working_iff.2 hw, hk, hs]) _ _

theorem committed_regs (count : Nat) (s : State) : (s.committed count).regs = { s.regs with
    attention := s.regs.attention ||| commitBits count s.jnl (s.jnl.commit count s.now) } := rfl

/-- Settles O51: the state as the commit leaves it, then the end of its sequence. -/
theorem journalCommits : Obligations.JournalCommits := by
  intro q s hw hq hk hs j gapDue
  have hgap : j.gapDue q.count = true ↔ gapDue := decide_eq_true_iff
  obtain ⟨-, -, -, hhalt, hgo, hframe⟩ := visitEnded_endSequence (s.committed q.count) s.arc.sweep
  have hjnl : (endSequence (s.committed q.count)).jnl = j.commit q.count s.now := endSequence_jnl _
  have hregs : (endSequence (s.committed q.count)).regs = (s.committed q.count).regs := by
    obtain ⟨-, -, -, -, hregs, -⟩ := endSequence_spec (s.committed q.count)
    exact hregs
  have hpublish : (j.commit q.count s.now).publish = false := rfl
  have hholdOff : (j.commit q.count s.now).holdOff = j.holdOff := by rw [commit_eq]
  obtain ⟨hjournal, hurgent, hfault, hclock⟩ := commitBits_getLsbD q.count j (j.commit q.count s.now)
  refine ⟨_, journalCommit_next hw hq hk hs, ?_, endSequence_arc _, hhalt, fun hp => ?_, ?_, ?_⟩
  · rw [hjnl, hregs]
    exact hframe
  · obtain ⟨hport, hqueue⟩ := hgo hp
    refine ⟨hport, endSequence_haltTaken hp, hqueue.trans ?_⟩
    rw [hjnl]
    simp [State.committed, hpublish, hholdOff, j]
  · rw [hjnl, commit_eq]
    simp only [hgap]
    rfl
  · intro unreleased wake urgent
    have hwake := wakes_commit q.count s.now j
    rw [← hjnl] at hwake
    rw [hregs, committed_regs]
    refine ⟨rfl, ?_, ?_, ?_, ?_⟩
    · rw [BitVec.getLsbD_or, hjournal, Bool.or_eq_true, ← hjnl, hwake]
    · rw [BitVec.getLsbD_or, hurgent, Bool.or_eq_true, any_urgent_iff]
    · rw [BitVec.getLsbD_or, hfault, Bool.or_false]
    · rw [BitVec.getLsbD_or, hclock, Bool.or_false]

end Sys2Proof.Machine
end

section
/-! SUPPORT. The three resets and the start-up hold (O6, O7), and the clock outside LOCKED: its frames, its edges, its timeouts
and the rollover of device time (O9, O10, O11, O14). -/

namespace Sys2Proof.Machine

/-! ### Resets (R219) -/

/-- A reset leaves every block at its after-reset values, whatever its cause. -/
theorem resetPart_afterReset (cause : ResetCause) (part : Part) (s : State) :
    AfterReset cause s (resetPart cause part s) := by
  refine ⟨rfl, rfl, rfl, rfl, rfl, rfl, rfl, rfl, rfl, rfl, rfl, rfl, rfl, rfl, ?_⟩
  cases cause <;> rfl

/-- RESET_N low resets the part from the 64th cycle on. -/
theorem pinReset_filtered (cycles : Nat) (s : State) :
    exec (.pinReset cycles) s
      = .next (if 64 ≤ cycles then resetPart .pin ⟨.inReset, s.part.supplyLow, true⟩ s else s) := by
  by_cases h : 64 ≤ cycles
  · rw [if_pos h]
    exact whenDue_true (decide_eq_true h) _ _
  · rw [if_neg h]
    exact whenDue_false (decide_eq_false h) _ _

/-- Settles O6: each reset is resetPart, the pin behind its filter and SOFT_RESET in the working phase alone. -/
theorem resetsOfEachKind : Obligations.ResetsOfEachKind := by
  intro s
  refine ⟨⟨_, rfl, resetPart_afterReset .powerOn _ s, rfl⟩, fun cycles h => ?_, fun cycles h => ?_, fun hw => ?_,
    fun hw => ?_⟩
  · exact ⟨_, (pinReset_filtered cycles s).trans (by rw [if_pos h]), resetPart_afterReset .pin _ s, rfl⟩
  · rw [pinReset_filtered, if_neg (Nat.not_le.2 h)]
  · exact ⟨_, whenDue_true (working_iff.2 hw) _ _, resetPart_afterReset .soft _ s, rfl⟩
  · exact whenDue_false (Bool.eq_false_iff.2 (mt working_iff.1 hw)) _ _

/-- The end of a cause moves the phase alone: to the hold when no cause is left. -/
theorem afterCause_eq (p : Part) : p.afterCause = { p with
    phase := if p.phase = .inReset ∧ p.supplyLow = false ∧ p.resetLow = false then .hold else p.phase } := by
  unfold Part.afterCause
  split <;> rfl

/-- The state as the hold ends, its first tick boundary not yet taken (R204, R219). -/
def State.holdEnded (s : State) : State :=
  { s with part := { s.part with phase := .working }, clk := { s.clk with frame := 0, frameAge := 0, spacing := 0 } }

/-- Settles O7: the end of a cause by the phase and the other cause, the end of the hold by its tick boundary. -/
theorem resetEndsIntoTheHold : Obligations.ResetEndsIntoTheHold := by
  refine ⟨fun s => ⟨⟨_, rfl, rfl, ?_⟩, ⟨_, rfl, rfl, ?_⟩⟩, fun s => ⟨fun hh => ?_, fun hh => ?_⟩⟩
  · simp [afterCause_eq]
  · simp [afterCause_eq]
  · obtain ⟨htick, -, hpart, hregs, hplan, hhwy, hmem, hclk⟩ := tickBoundary_spec s.holdEnded
    have hkept : (tickBoundary s.holdEnded).clk.frame = 0 ∧ (tickBoundary s.holdEnded).clk.frameAge = 0
        ∧ (tickBoundary s.holdEnded).clk.spacing = 0 ∧ (tickBoundary s.holdEnded).clk.state = s.clk.state
        ∧ (tickBoundary s.holdEnded).clk.divider = s.clk.divider := by
      rw [hclk]
      simp [State.holdEnded]
    obtain ⟨hframe, hage, hspacing, hstate, hdivider⟩ := hkept
    exact ⟨tickBoundary s.holdEnded, whenDue_true (beq_iff_eq.2 hh) _ _, hpart, hframe, hage, hspacing, hstate, hdivider,
      TickTaken.of_clock (s := s) htick (now_congr rfl rfl rfl rfl) (settle_pendingTime_congr rfl rfl), hregs, hplan, hhwy,
      hmem⟩
  · exact whenDue_false (beq_eq_false_iff_ne.2 hh) _ _

/-! ### Frames outside LOCKED (R204, R207) -/

theorem heldOpen_iff {c : Clock} : c.heldOpen = true ↔ c.state = .qualifying ∧ c.lockDue = true ∧ c.frame = 3 := by
  simp [Clock.heldOpen, and_assoc]

/-- Where a frame ends that no edge of a locked clock paces: the held frame 3 at 5120, any other at its length or later. -/
theorem frameLimit_unlocked {c : Clock} (hl : c.state ≠ .locked) :
    c.frameLimit = if c.heldOpen = true then 5120 else max c.frameLength c.frameAge := by
  simp [Clock.frameLimit, hl]

/-- A frame start keeps the count and the mark of a qualifying clock (R206, R207). -/
theorem startFrame_qualifying (s : State) :
    (startFrame s).clk.qualCount = s.clk.qualCount ∧ (startFrame s).clk.lockDue = s.clk.lockDue := by
  rw [startFrame_clk]
  split <;> simp

/-- The blocks at a frame start of a clock that has counted on with device time as it was: the highway opened and driven by
nothing, and what a tick paces taken on at frame 0 alone. -/
theorem startFrame_counted {s : State} {c : Clock} (hframe : c.frame = s.clk.frame) (hnow : c.now = s.clk.now)
    (hpend : c.settle.pendingTime = s.clk.settle.pendingTime) :
    let t := startFrame { s with clk := c }
    (t.hwy.slot = 0 ∧ t.hwy.delay = s.hwy.delay ∧ (∀ n : LineNo, t.hwy.xtxd[n] = none)
        ∧ ∀ n : LineNo, t.hwy.delayed[n] = s.hwy.delay[n].headD 0)
      ∧ (t.regs = s.regs ∧ t.part = s.part ∧ t.plan = s.plan ∧ t.mem = s.mem)
      ∧ if (s.clk.frame + 1) % 4 = 0 then TickTaken s t else TickBlocksSame s t ∧ t.now = s.now := by
  obtain ⟨-, -, hslot, hdelay, hx, hdelayed⟩ := startFrame_frame { s with clk := c }
  obtain ⟨hplan, hregs, hpart, hmem, -⟩ := startFrame_blocks { s with clk := c }
  refine ⟨⟨hslot, hdelay, fun n => by rw [hx]; simp, hdelayed⟩, ⟨hregs, hpart, hplan, hmem⟩, ?_⟩
  rw [← hframe]
  split
  · rename_i h
    obtain ⟨htick, -⟩ := startFrame_boundary { s with clk := c } h
    exact htick.of_clock hnow hpend
  · rename_i h
    obtain ⟨hsame, -⟩ := startFrame_inside { s with clk := c } h
    exact ⟨hsame, (startFrame_inside_now { s with clk := c } h).trans hnow⟩

/-- Settles O9: the next frame starts where the divider ends this one, but for a held frame 3. -/
theorem frameStartsFromTheOscillator : Obligations.FrameStartsFromTheOscillator := by
  intro s hw hl
  refine ⟨fun hopen => ?_, fun hheld => ?_⟩
  · have hno : s.clk.heldOpen = false := Bool.eq_false_iff.2 (mt heldOpen_iff.1 hopen)
    have hlim : s.clk.frameLimit = max s.clk.frameLength s.clk.frameAge := by simp [frameLimit_unlocked hl, hno]
    obtain ⟨hfr, hfa, -⟩ := startFrame_frame { s with clk := s.clk.passTo s.clk.frameLimit }
    obtain ⟨hst, hdiv, hsince, hmiss, hsp, -⟩ := startFrame_clock { s with clk := s.clk.passTo s.clk.frameLimit }
    obtain ⟨hcount, hdue⟩ := startFrame_qualifying { s with clk := s.clk.passTo s.clk.frameLimit }
    obtain ⟨⟨hslot, hdelay, hx, hdelayed⟩, ⟨hregs, hpart, hplan, hmem⟩, htick⟩ :=
      startFrame_counted (s := s) (c := s.clk.passTo s.clk.frameLimit) rfl (now_congr rfl rfl rfl rfl)
        (settle_pendingTime_congr rfl rfl)
    have hspacing : (s.clk.passTo s.clk.frameLimit).spacing
        = s.clk.spacing + (max s.clk.frameLength s.clk.frameAge - s.clk.frameAge) := by rw [← hlim]; rfl
    exact ⟨_, whenDue_true (by simp [working_iff.2 hw, hl, hno]) _ _, hfr, hfa, hsp.trans hspacing, hst, hcount, hdue, hmiss,
      hdiv, hsince, hslot, hdelay, hx, hdelayed, hregs, hpart, hplan, hmem, htick⟩
  · exact whenDue_false (by simp [heldOpen_iff.2 hheld]) _ _

/-! ### The rollover of device time and the divider window (R210 to R212) -/

/-- The rollover field by field: a pending setting is loaded and its edition adopted, or one second passes (R211, R212). -/
theorem roll_eq (c : Clock) : c.roll = { c with
    rolloverDue := false
    tick := 0
    seconds := (match c.pendingTime with
      | some p => p.seconds
      | none => c.seconds + 1)
    timeAdopted := (match c.pendingTime with
      | some p => some p.edition
      | none => c.timeAdopted)
    pendingTime := none } := by
  cases hp : c.pendingTime <;> simp [Clock.roll, hp]

/-- The learned divider is the rounded mean frame count, held between the limits of the clamp (R210). -/
theorem learnedDivider_clamped (cycles : Nat) : learnedDivider cycles =
    if (cycles + 128) / 256 < 10036 then 10036 else if 10444 < (cycles + 128) / 256 then 10444 else (cycles + 128) / 256 := by
  unfold learnedDivider Config.dividerMin Config.dividerMax
  split_ifs <;> omega

/-- Settles O10: the rollover is that of the clock, the learned divider the clamped mean. -/
theorem rolloverAndDividerWindow : Obligations.RolloverAndDividerWindow := by
  intro s hw
  refine ⟨fun hdue => ?_, fun cycles hdone => ?_⟩
  · exact ⟨_, whenDue_true (by simp [working_iff.2 hw, hdue]) _ _, rfl, roll_now s.clk hdue, roll_eq s.clk⟩
  · have hexec : exec .dividerWindowClose s
        = .next { s with clk := { s.clk with divider := learnedDivider cycles, windowDone := none } } := by
      simp [exec, execDividerWindowClose, hdone, whenDue_true (working_iff.2 hw)]
    exact ⟨_, hexec, rfl, learnedDivider_clamped cycles⟩

/-! ### Changes of clock state out of LOCKED (R206, R209) -/

/-- A change of clock state that neither enters nor leaves LOCKED moves no sender. -/
theorem changeClock_pool {st : ClockState} {s : State} (hst : st ≠ .locked) (hs : s.clk.state ≠ .locked) :
    (changeClock st s).pool = s.pool := by
  simp [changeClock, hst, hs]

/-- A change of clock state outside LOCKED, the clock having counted on to c: the CLOCK record and bit, and no other block. -/
theorem changeClock_counted {st : ClockState} {s : State} {c : Clock} (hst : st ≠ .locked) (hs : c.state ≠ .locked)
    (hnow : c.now = s.clk.now) :
    let t := changeClock st { s with clk := c }
    t.clk = { c with state := st }
      ∧ Recorded [⟨none, s.now, .clock st⟩] s t
      ∧ t.regs = { s.regs with attention := s.regs.attention ||| 8 }
      ∧ t.part = s.part ∧ t.lines = s.lines ∧ t.pool = s.pool ∧ t.scan = s.scan ∧ t.plan = s.plan ∧ t.hwy = s.hwy
      ∧ t.mem = s.mem := by
  obtain ⟨hclk, hrec, hregs, hlines, hscan, hplan, hhwy, hmem, hpart, -⟩ := changeClock_spec st { s with clk := c }
  have hdate : State.now { s with clk := c } = s.now := hnow
  rw [hdate] at hrec
  exact ⟨hclk, hrec.congr ⟨rfl, rfl⟩ ⟨rfl, rfl⟩, hregs, hpart, hlines, changeClock_pool hst hs, hscan, hplan, hhwy,
    hmem⟩

/-! ### Edges in FREE, HOLDOVER and QUALIFYING (R206, R207) -/

/-- An edge up to the end of its frame is taken at its cycle. -/
theorem xfsEdge_taken {cycle : Nat} {s : State} (hw : s.part.phase = .working) (hage : s.clk.frameAge ≤ cycle)
    (hlim : cycle ≤ s.clk.frameLimit) :
    exec (.xfsEdge cycle) s = .next (takeEdge { s with clk := s.clk.passTo cycle }) :=
  whenDue_true (by simp [working_iff.2 hw, hage, hlim]) _ _

/-- The clock as an edge in FREE or HOLDOVER starts to qualify it: the count at 0 and the spacing timer started (R206). -/
def Clock.qualifyAfresh (c : Clock) : Clock := { c with qualCount := 0, lockDue := false, spacing := 0 }

theorem takeEdge_unlocked {s : State} (h : s.clk.state = .free ∨ s.clk.state = .holdover) :
    takeEdge s = changeClock .qualifying { s with clk := s.clk.qualifyAfresh } := by
  rcases h with h | h <;> simp [takeEdge, h, Clock.qualifyAfresh]

theorem takeEdge_qualifying {s : State} (h : s.clk.state = .qualifying) : takeEdge s = qualifyEdge s := by
  simp [takeEdge, h]

theorem wellSpaced_iff {spacing : Nat} : wellSpaced spacing = true ↔ 2483 ≤ spacing ∧ spacing ≤ 2637 := by
  simp [wellSpaced]

/-- A badly spaced edge starts the count again (R206). -/
theorem qualifyEdge_bad {s : State} (h : ¬ (2483 ≤ s.clk.spacing ∧ s.clk.spacing ≤ 2637)) :
    qualifyEdge s = { s with clk := s.clk.qualifyAfresh } := by
  simp [qualifyEdge, wellSpaced_iff, h, Clock.qualifyAfresh]

/-- A well-spaced edge that is no handover counts, up to 1024, where the lock falls due (R206, R207). -/
theorem qualifyEdge_good {s : State} (h : 2483 ≤ s.clk.spacing ∧ s.clk.spacing ≤ 2637)
    (hno : ¬ (s.clk.heldOpen = true ∧ 2483 ≤ s.clk.frameAge)) :
    qualifyEdge s = { s with clk := { s.clk with
      qualCount := min (s.clk.qualCount + 1) 1024
      lockDue := s.clk.lockDue || decide (min (s.clk.qualCount + 1) 1024 = 1024)
      spacing := 0 } } := by
  have hhand : (s.clk.heldOpen && decide (Config.minSpacing ≤ s.clk.frameAge)) = false := by
    rwa [Bool.eq_false_iff, Ne, Bool.and_eq_true, decide_eq_true_iff]
  simp only [qualifyEdge, wellSpaced_iff.2 h, hhand, if_true, Bool.false_eq_true, if_false]
  rfl

/-- Settles O11: out of QUALIFYING an edge changes the clock's state, within it the edge counts or starts again. -/
theorem edgesBeforeTheLock : Obligations.EdgesBeforeTheLock := by
  refine ⟨fun cycle s hw hfree hage hmax => ?_, fun cycle s hw hq hage hmax => ?_⟩
  · have hl : s.clk.state ≠ .locked := by rcases hfree with h | h <;> simp [h]
    have hno : s.clk.heldOpen = false := Bool.eq_false_iff.2 fun h => by
      obtain ⟨hq, -⟩ := heldOpen_iff.1 h
      simp [hq] at hfree
    have hlim : cycle ≤ s.clk.frameLimit := by
      rw [frameLimit_unlocked hl, hno, if_neg Bool.false_ne_true]
      exact hmax
    refine ⟨_, (xfsEdge_taken hw hage hlim).trans (congrArg _ (takeEdge_unlocked hfree)), ?_⟩
    exact changeClock_counted (s := s) (c := (s.clk.passTo cycle).qualifyAfresh) (by decide) hl (now_congr rfl rfl rfl rfl)
  · have hlim : cycle ≤ s.clk.frameLimit := by
      simpa only [frameLimit_unlocked (show s.clk.state ≠ .locked by simp [hq]), heldOpen_iff, hq, true_and,
        Clock.frameLength] using hmax
    have hedge := (xfsEdge_taken hw hage hlim).trans (congrArg _ (takeEdge_qualifying hq))
    refine ⟨fun hbad => ?_, fun hgood hnot => ?_⟩
    · exact hedge.trans (congrArg _ (qualifyEdge_bad hbad))
    · refine hedge.trans (congrArg _ (qualifyEdge_good hgood fun ⟨hheld, hcycle⟩ => hnot ?_))
      obtain ⟨-, hdue, hf⟩ := heldOpen_iff.1 hheld
      exact ⟨hdue, hf, hcycle⟩

/-! ### Timeouts in QUALIFYING (R206, R207) -/

/-- The clock as a held frame 3 ends without a lock (R207). -/
def Clock.lockMissed (c : Clock) : Clock := { c.passTo 5120 with lockDue := false, qualCount := 0 }

/-- The clock as 10240 cycles have passed without an edge (R206). -/
def Clock.edgeMissed (c : Clock) : Clock := { c.passTo c.lossCycle with qualCount := 0, lockDue := false }

theorem edgeMissed_eq (c : Clock) : c.edgeMissed = { c with
    qualCount := 0
    lockDue := false
    spacing := c.spacing + (10240 - c.spacing)
    frameAge := c.frameAge + (10240 - c.spacing) } := by
  simp [Clock.edgeMissed, Clock.passTo, Clock.lossCycle]

theorem lostState_ne_locked (c : Clock) : lostState c ≠ .locked := by
  unfold lostState
  split <;> simp

/-- Settles O14: a frame start without the mark, and a change of the clock's state. -/
theorem qualifyingTimesOut : Obligations.QualifyingTimesOut := by
  intro s hw hq
  refine ⟨fun hdue hf => ?_, fun hloss => ?_⟩
  · have hheld : s.clk.heldOpen = true := heldOpen_iff.2 ⟨hq, hdue, hf⟩
    have hframe : (s.clk.frame + 1) % 4 = 0 := by rw [hf]
    obtain ⟨hfr, hfa, -⟩ := startFrame_frame { s with clk := s.clk.lockMissed }
    obtain ⟨hst, hdiv, -, -, hsp, -⟩ := startFrame_clock { s with clk := s.clk.lockMissed }
    obtain ⟨hcount, hmark⟩ := startFrame_qualifying { s with clk := s.clk.lockMissed }
    obtain ⟨⟨hslot, hdelay, hx, hdelayed⟩, ⟨hregs, hpart, hplan, hmem⟩, htick⟩ :=
      startFrame_counted (s := s) (c := s.clk.lockMissed) rfl (now_congr rfl rfl rfl rfl) (settle_pendingTime_congr rfl rfl)
    rw [if_pos hframe] at htick
    exact ⟨startFrame { s with clk := s.clk.lockMissed }, whenDue_true (by simp [working_iff.2 hw, hheld]) _ _, hst.trans hq,
      hmark, hcount, hfr.trans hframe, hfa, hsp, hdiv, htick, hslot, hdelay, hx, hdelayed, hregs, hpart, hplan, hmem⟩
  · have hl : s.clk.state ≠ .locked := by simp [hq]
    have hexec : exec .qualifyTimeout s = .next (changeClock (lostState s.clk) { s with clk := s.clk.edgeMissed }) :=
      whenDue_true (by simp [working_iff.2 hw, hq, show s.clk.lossCycle ≤ s.clk.frameLimit from hloss]) _ _
    obtain ⟨hclk, hrest⟩ := changeClock_counted (s := s) (c := s.clk.edgeMissed) (lostState_ne_locked s.clk) hl
      (now_congr rfl rfl rfl rfl)
    refine ⟨_, hexec, hclk.trans ?_, hrest⟩
    rw [edgeMissed_eq]
    rfl

end Sys2Proof.Machine
end

section
/-! SUPPORT. Every command answers a next state, and the commands that wait behind it go on waiting, in their order: a command
acts on the blocks of the part alone, and only `step` takes from the queue (assumption logs 1, 2). -/

namespace Sys2Proof.Machine

/-! ### Every command answers -/

/-- A step that may be due answers a next state whether or not it is (assumption log 2). -/
theorem whenDue_answers (due : Bool) (s t : State) : ∃ u, whenDue due s t = .next u := ⟨_, rfl⟩

/-- A command that serves a sequence in flight, a timer that runs or a count that is kept rests where there is none; every
other command is a step that may be due, or is always taken. -/
theorem exec_answers (c : Instr) (s : State) : ∃ t, exec c s = .next t := by
  cases c
  case lineTakeUp | visitComplete =>
    simp only [exec, execLineTakeUp, execVisitComplete]
    split
    · split
      · exact whenDue_answers _ s _
      all_goals exact ⟨s, rfl⟩
    · exact ⟨s, rfl⟩
  case dividerWindowClose | interdigitExpiry | completionTimerExpiry | burstStart =>
    simp only [exec, execDividerWindowClose, execInterdigitExpiry, execCompletionTimerExpiry, execBurstStart]
    split
    · exact whenDue_answers _ s _
    · exact ⟨s, rfl⟩
  case sequenceStart | busGrant | transferDone | busError | headerTakeUp | planLoadOutcome | headerVisitComplete
      | headerCheck | releaseRead | journalCommit =>
    simp only [exec, execSequenceStart, execBusGrant, execTransferDone, execBusError, execHeaderTakeUp,
      execPlanLoadOutcome, execHeaderVisitComplete, execHeaderCheck, execReleaseRead, execJournalCommit]
    split
    · exact whenDue_answers _ s _
    · exact ⟨s, rfl⟩
  all_goals exact ⟨_, rfl⟩

/-! ### The queue through the operations of the clock and the highway (R204 to R209) -/

theorem whenDue_pending {due : Bool} {s t u : State} (h : whenDue due s t = .next u) (ht : t.pending = s.pending) :
    u.pending = s.pending := whenDue_keeps (P := fun x => x.pending = s.pending) h rfl fun _ => ht

theorem LineStep.pending {n : LineNo} {s t : State} (h : LineStep n s t) : t.pending = s.pending := by
  obtain ⟨⟨hp, -⟩, -⟩ := h.event
  exact hp

@[simp] theorem tickBoundary_pending (s : State) : (tickBoundary s).pending = s.pending := by
  obtain ⟨-, hp, -⟩ := tickBoundary_spec s
  exact hp

@[simp] theorem startFrame_pending (s : State) : (startFrame s).pending = s.pending := by
  obtain ⟨-, -, -, -, hp⟩ := startFrame_blocks s
  exact hp

@[simp] theorem composeFrame_pending (s : State) : (composeFrame s).pending = s.pending := rfl

@[simp] theorem changeClock_pending (st : ClockState) (s : State) : (changeClock st s).pending = s.pending := by
  obtain ⟨-, -, -, -, -, -, -, -, -, hp, -⟩ := changeClock_spec st s
  exact hp

@[simp] theorem enterLocked_pending (s : State) : (enterLocked s).pending = s.pending := by simp [enterLocked]

@[simp] theorem nextLockedFrame_pending (missing : Nat) (s : State) : (nextLockedFrame missing s).pending = s.pending := by
  simp [nextLockedFrame]

@[simp] theorem loseReference_pending (s : State) : (loseReference s).pending = s.pending := by simp [loseReference]

@[simp] theorem qualifyEdge_pending (s : State) : (qualifyEdge s).pending = s.pending := by
  simp only [qualifyEdge]
  split
  · split
    · exact enterLocked_pending s
    · rfl
  · rfl

@[simp] theorem lockedEdge_pending (s : State) : (lockedEdge s).pending = s.pending := by
  unfold lockedEdge
  split
  · rfl
  · simp

@[simp] theorem takeEdge_pending (s : State) : (takeEdge s).pending = s.pending := by
  unfold takeEdge
  split
  · simp
  · simp
  · exact qualifyEdge_pending s
  · exact lockedEdge_pending s

/-- A filled frame, with the loss of the reference and the expiries before it (R140, R208). -/
theorem filledFrame_pending {s t : State} (h : execFilledFrame s = .next t) : t.pending = s.pending := by
  have hfill : s.filled.pending = s.pending := nextLockedFrame_pending _ _
  refine whenDue_pending h ?_
  change (if 4 ≤ s.clk.missing + 1 then loseReference (expiriesBeforeLoss s.filled) else composeFrame s.filled).pending = _
  split
  · obtain ⟨-, ⟨-, -, hundriven, -⟩, -⟩ := filled_spec s
    obtain ⟨hexp, -⟩ := expiriesBeforeLoss_blocks hundriven
    exact (loseReference_pending _).trans (hexp.trans hfill)
  · exact hfill

theorem sampleLines_pending (frame : BitVec 192) (d : DevTime) (ns : List LineNo) (s : State) :
    (sampleLines frame d ns s).pending = s.pending := by
  induction ns generalizing s with
  | nil => rfl
  | cons n rest ih => exact (ih _).trans (lineStep_sampleLine _ n d s).pending

/-! ### The queue through the operations of the port and the journal (R161, R164, R179, R195, R215, R218) -/

@[simp] theorem endSequence_pending (s : State) : (endSequence s).pending = s.pending := by
  obtain ⟨-, -, -, -, -, -, -, -, -, -, -, hp, -⟩ := endSequence_spec s
  exact hp

@[simp] theorem readDone_pending (data : Word) (q : Sequence) (s : State) : (readDone data q s).pending = s.pending := by
  obtain ⟨-, -, -, -, -, -, -, -, -, -, hp⟩ := readDone_spec data q s
  exact hp

@[simp] theorem beginWriting_pending (now : Bool) (q : Sequence) (s : State) :
    (beginWriting now q s).pending = s.pending := rfl

@[simp] theorem portFault_pending (code : FaultCode) (s : State) : (portFault code s).pending = s.pending := rfl

@[simp] theorem planOutcome_pending (edition : Byte) (got : List Word) (s : State) :
    (planOutcome edition got s).pending = s.pending := by
  unfold planOutcome
  split <;> exact handOver_pending _ _

@[simp] theorem enterRunning_pending (q : Sequence) (s : State) : (enterRunning q s).pending = s.pending :=
  endSequence_pending _

@[simp] theorem readRelease_pending (r : Nat) (q : Sequence) (s : State) : (readRelease r q s).pending = s.pending := by
  simp only [readRelease]
  split
  · exact endSequence_pending _
  · rfl

@[simp] theorem haltPort_pending (s : State) : (haltPort s).pending = s.pending := by
  unfold haltPort enterHalting
  split
  · rfl
  · split <;> rfl
  all_goals rfl

/-! ### The queue through the steps of a sequence -/

theorem lineTakeUp_pending {now : Bool} {s t : State} (h : execLineTakeUp now s = .next t) : t.pending = s.pending := by
  unfold execLineTakeUp at h
  split at h
  · split at h
    · exact whenDue_pending h (lineStep_takeUp _ _ _ s).pending
    all_goals
      cases h
      rfl
  · cases h
    rfl

theorem visitComplete_pending {s t : State} (h : execVisitComplete s = .next t) : t.pending = s.pending := by
  unfold execVisitComplete at h
  split at h
  · split at h
    · exact whenDue_pending h (endSequence_pending _)
    all_goals
      cases h
      rfl
  · cases h
    rfl

theorem transferDone_pending {data : Word} {s t : State} (h : execTransferDone data s = .next t) :
    t.pending = s.pending := by
  unfold execTransferDone at h
  split at h
  · refine whenDue_pending h ?_
    split
    · rfl
    · exact readDone_pending _ _ _
  · cases h
    rfl

theorem headerTakeUp_pending {now : Bool} {s t : State} (h : execHeaderTakeUp now s = .next t) :
    t.pending = s.pending := by
  unfold execHeaderTakeUp at h
  split at h
  · refine whenDue_pending h ?_
    split <;> rfl
  · cases h
    rfl

theorem headerCheck_pending {s t : State} (h : execHeaderCheck s = .next t) : t.pending = s.pending := by
  unfold execHeaderCheck at h
  split at h
  · refine whenDue_pending h ?_
    split
    · rfl
    · split
      · exact enterRunning_pending _ s
      · rfl
  · cases h
    rfl

/-! ### The queue through every command -/

/-- No command reaches the commands that wait behind it. -/
theorem exec_pending {c : Instr} {s t : State} (h : exec c s = .next t) : t.pending = s.pending := by
  cases hl : lineOf c with
  | some n => exact (exec_lineStep hl h).pending
  | none =>
    cases c
    case startUpHoldEnd => exact whenDue_pending h (tickBoundary_pending _)
    case frameStart | lockHandoverTimeout => exact whenDue_pending h (startFrame_pending _)
    case xfsEdge cycle => exact whenDue_pending h (takeEdge_pending _)
    case qualifyTimeout => exact whenDue_pending h (changeClock_pending _ _)
    case filledFrame => exact filledFrame_pending h
    case scanFrameComplete frame => exact whenDue_pending h (sampleLines_pending frame _ _ _)
    case burstStart => exact (senderFrame_burstStart h).pending
    case burstExpiry k =>
      cases h
      exact (senderFrame_takeBurstExpiry k s).pending
    case gapExpiry k =>
      cases h
      exact (senderFrame_takeGapExpiry k s).pending
    case lineTakeUp => exact lineTakeUp_pending h
    case visitComplete => exact visitComplete_pending h
    case transferDone => exact transferDone_pending h
    case headerTakeUp => exact headerTakeUp_pending h
    case headerCheck => exact headerCheck_pending h
    case holdOffClear => exact whenDue_pending h (requestJournal_pending _)
    case halt => exact whenDue_pending h (haltPort_pending s)
    case dividerWindowClose | sequenceStart | busGrant | busError | headerVisitComplete | planLoadOutcome | releaseRead
        | journalCommit =>
      simp only [exec, execDividerWindowClose, execSequenceStart, execBusGrant, execBusError, execHeaderVisitComplete,
        execPlanLoadOutcome, execReleaseRead, execJournalCommit] at h
      split at h
      · exact whenDue_pending h (by simp)
      · cases h
        rfl
    case powerOn | ignoredCommand | resetNReturnsHigh | supplyInOperatingRange =>
      cases h
      rfl
    case timeRollover | lineSlotReceived | busTimeout | run | clearFault | areaBaseWrite | statusWrite | attentionWrite
        | pinReset | softReset =>
      exact whenDue_pending h rfl
    all_goals cases hl

/-- Settles O2: a command answers, and what it answers has the same queue. -/
theorem everyCommandCompletes : Obligations.EveryCommandCompletes := by
  intro c s
  obtain ⟨t, h⟩ := exec_answers c s
  exact ⟨t, h, exec_pending h⟩

/-! ### The step of the machine (assumption log 1) -/

theorem step_front {s : State} {c : Instr} {rest : List Instr} (h : s.pending = c :: rest) :
    step s = exec c { s with pending := rest } := by simp only [step, h]

theorem step_idle {s : State} (h : s.pending = []) : step s = .next s := by simp only [step, h]

/-- Settles O1, by what stands at the front of the queue. -/
theorem stepTakesFront : Obligations.StepTakesFront := fun _ => ⟨fun _ _ => step_front, step_idle⟩

end Sys2Proof.Machine
end
